-- ==== Sys2Proof/Word.lean ====
section
/-! DEFINITION. The word types of the core (R5, R6): 8-bit data and addresses, 16-bit instruction words, 4-bit register
indices. All values are unsigned bit vectors of the stated width; arithmetic on them wraps (R6, R129). -/

namespace Sys2Proof

/-- A register, memory or latch value, and a store address: 8 bits (`XLEN`, R5; R40, R41). -/
abbrev Byte := BitVec 8

/-- An instruction word `ir`: 16 bits, numbered from 0, the least significant (`ILEN`, R5; R6, R60). -/
abbrev Word := BitVec 16

/-- A register index, 0 to 15 (`NREGS`, R5; R10, R63): a name, never added to or shifted. -/
abbrev RegIdx := Fin 16

end Sys2Proof
end

