-- ==== Sys2Proof/Config.lean ====
section
/-! DEFINITION. What is fixed for one machine: the parameters the spec leaves OPEN (R5; decisions D4, D5, D15), the constants
it fixes, and the one free value. The launch parameters `R_INIT`, `IMEM_INIT`, `DMEM_INIT` (D17) are `LaunchImage` in
WellFormed.lean. -/

namespace Sys2Proof

/-- The configuration record of R5: the rows marked *parameter*, each with the spec's default. -/
structure Config where
  /-- `IFETCH_BIG_ENDIAN` (R43, D4): the byte at the lower address is bits 15 to 8 of the instruction word. -/
  ifetchBigEndian : Bool := true
  /-- `IMM4_SIGNED` (R64, D5): the load/store offset is sign-extended; by default it is zero-extended. -/
  imm4Signed : Bool := false
  /-- `CTR_WIDTH` (R24, D15): the width of the statistics counters; `none` is an unbounded natural number. -/
  ctrWidth : Option Nat := none
  deriving DecidableEq, Repr

/-- Every parameter at the spec's default (R5). -/
def Config.default : Config := {}

/-- `STORE_SIZE`: bytes in each of the two stores (R5, R15, R16; D1). -/
def storeSize : Nat := 256

/-- `NREGS`: general registers (R5, R10). -/
def numRegs : Nat := 16

/-- What a counter of `width` bits holds when its exact count `exact` no longer fits: the spec gives no overflow behaviour
(91_not_in_source.md N11), so this is a FREE VALUE, log entry 9, which also names how the counter goes on from it. -/
opaque Config.counterOverflow : (width exact : Nat) → Nat

end Sys2Proof
end

