-- ==== Sys2Proof/Syntax.lean ====
section
/-! DEFINITION. The instructions of PP16: one constructor per row of the opcode table (R69), with the fields R77 gives each. -/

namespace Sys2Proof

/-- The typed instruction record of R77. Register fields are indices (R63); immediates are the bits of their field (R64,
R65, R66). Bits without a field carry nothing and are not kept (R68). -/
inductive Instr where
  | add (dest src1 src2 : RegIdx)                       -- R121
  | sub (dest src1 src2 : RegIdx)                       -- R122
  | mul (dest src1 src2 : RegIdx)                       -- R123
  | inc (reg : RegIdx)                                  -- R124
  | and (dest src1 src2 : RegIdx)                       -- R125
  | or (dest src1 src2 : RegIdx)                        -- R126
  | not (dest src : RegIdx)                             -- R127
  | xor (dest src1 src2 : RegIdx)                       -- R128
  | load (dest base : RegIdx) (imm4 : BitVec 4)         -- R141
  | store (valueReg base : RegIdx) (imm4 : BitVec 4)    -- R142
  | jmp (imm8 : BitVec 8)                               -- R151
  | beqz (condReg : RegIdx) (imm8 : BitVec 8)           -- R152
  | undef12                                             -- R161
  | undef13                                             -- R161
  | undef14                                             -- R161
  | halt                                                -- R160
  deriving DecidableEq, Repr

/-- The statistics classes of R99 (column "Class" of R69). Opcodes 12 to 14 have none. -/
inductive InstrClass where
  | arith | logic | data | ctrl | halt
  deriving DecidableEq, Repr

end Sys2Proof
end

