-- ==== Sys2Proof/Decode.lean ====
section
/-! DEFINITION. Decoding (R60 to R77) and the encoder written from the same formats (R62, R69, R75). The decoder of a word is
total: all 65536 words are instructions (R72). A byte list too short to hold a word is rejected by name. -/

namespace Sys2Proof

/-! ## The fields of a word (R62) -/

/-- `op = ir[15:12]` (R61). -/
def Word.op (ir : Word) : BitVec 4 := ir.extractLsb' 12 4

/-- `f1 = ir[11:8]` as a register index (R63, R77). -/
def Word.f1 (ir : Word) : RegIdx := (ir.extractLsb' 8 4).toFin

/-- `f2 = ir[7:4]` as a register index (R63, R77). -/
def Word.f2 (ir : Word) : RegIdx := (ir.extractLsb' 4 4).toFin

/-- `f3 = ir[3:0]` as a register index (R63, R77). -/
def Word.f3 (ir : Word) : RegIdx := (ir.extractLsb' 0 4).toFin

/-- `imm4 = ir[3:0]` of LOAD and STORE (R64). -/
def Word.imm4 (ir : Word) : BitVec 4 := ir.extractLsb' 0 4

/-- JMP's `imm8 = ir[11:4]` (R65). -/
def Word.jmpImm8 (ir : Word) : BitVec 8 := ir.extractLsb' 4 8

/-- BEQZ's `imm8 = ir[7:0]` (R66). -/
def Word.beqzImm8 (ir : Word) : BitVec 8 := ir.extractLsb' 0 8

/-! ## Decoding -/

/-- The decode function of R77: the opcode alone selects the instruction (R61); ignored bits take no part (R68). The opcode
has four bits, so the last arm is opcode 15 and no other. -/
def decode (ir : Word) : Instr :=
  match ir.op.toNat with
  | 0  => .add ir.f1 ir.f2 ir.f3
  | 1  => .sub ir.f1 ir.f2 ir.f3
  | 2  => .mul ir.f1 ir.f2 ir.f3
  | 3  => .inc ir.f1
  | 4  => .and ir.f1 ir.f2 ir.f3
  | 5  => .or ir.f1 ir.f2 ir.f3
  | 6  => .not ir.f1 ir.f2
  | 7  => .xor ir.f1 ir.f2 ir.f3
  | 8  => .load ir.f1 ir.f2 ir.imm4
  | 9  => .store ir.f1 ir.f2 ir.imm4
  | 10 => .jmp ir.jmpImm8
  | 11 => .beqz ir.f1 ir.beqzImm8
  | 12 => .undef12
  | 13 => .undef13
  | 14 => .undef14
  | _  => .halt

/-- Why a byte list is not an instruction. -/
inductive DecodeError where
  /-- Fewer than the two bytes of an instruction (R60). -/
  | truncated
  deriving DecidableEq, Repr

/-- The word two consecutive bytes of the Instruction Store make: `lo` stands at the lower address, `hi` at the next one.
With `IFETCH_BIG_ENDIAN` true it is `{lo, hi}`, with false `{hi, lo}` (R43). -/
def wordOfBytes (cfg : Config) (lo hi : Byte) : Word :=
  if cfg.ifetchBigEndian then (lo ++ hi : BitVec 16) else (hi ++ lo : BitVec 16)

/-- The two bytes of a word as the Instruction Store holds them, lower address first (R43). -/
def bytesOfWord (cfg : Config) (ir : Word) : Byte × Byte :=
  if cfg.ifetchBigEndian then (ir.extractLsb' 8 8, ir.extractLsb' 0 8) else (ir.extractLsb' 0 8, ir.extractLsb' 8 8)

/-- Decodes the instruction at the head of a byte list and returns the rest of the list. Every instruction is two bytes long
(R60, R74). -/
def decodeBytes (cfg : Config) : List Byte → Except DecodeError (Instr × List Byte)
  | lo :: hi :: rest => .ok (decode (wordOfBytes cfg lo hi), rest)
  | _ => .error .truncated

/-! ## Encoding -/

/-- `{op, f1, f2, f3}`, four nibbles, the first in the high bits (R62). -/
def nibbles (op f1 f2 f3 : BitVec 4) : Word := (op ++ f1 ++ f2 ++ f3 : BitVec (4 + 4 + 4 + 4))

/-- A register index as the four bits of its field (R63). -/
def regBits (r : RegIdx) : BitVec 4 := BitVec.ofFin r

/-- The word of an instruction (R62, R69, R75); ignored bits are emitted as 0 (R68). -/
def encode : Instr → Word
  | .add d s t => nibbles 0 (regBits d) (regBits s) (regBits t)
  | .sub d s t => nibbles 1 (regBits d) (regBits s) (regBits t)
  | .mul d s t => nibbles 2 (regBits d) (regBits s) (regBits t)
  | .inc r => nibbles 3 (regBits r) 0 0
  | .and d s t => nibbles 4 (regBits d) (regBits s) (regBits t)
  | .or d s t => nibbles 5 (regBits d) (regBits s) (regBits t)
  | .not d s => nibbles 6 (regBits d) (regBits s) 0
  | .xor d s t => nibbles 7 (regBits d) (regBits s) (regBits t)
  | .load d b i => nibbles 8 (regBits d) (regBits b) i
  | .store v b i => nibbles 9 (regBits v) (regBits b) i
  | .jmp i => nibbles 10 (i.extractLsb' 4 4) (i.extractLsb' 0 4) 0
  | .beqz c i => nibbles 11 (regBits c) (i.extractLsb' 4 4) (i.extractLsb' 0 4)
  | .undef12 => nibbles 12 0 0 0
  | .undef13 => nibbles 13 0 0 0
  | .undef14 => nibbles 14 0 0 0
  | .halt => nibbles 15 0 0 0

/-- The bytes of an instruction in the order the Instruction Store holds them. -/
def encodeBytes (cfg : Config) (i : Instr) : List Byte :=
  [(bytesOfWord cfg (encode i)).1, (bytesOfWord cfg (encode i)).2]

/-- The bits of a word that its instruction reads: a canonical word has no other bit set (R68, R73). -/
def fieldMask (ir : Word) : Word :=
  match ir.op.toNat with
  | 3  => 0xFF00#16
  | 6  => 0xFFF0#16
  | 10 => 0xFFF0#16
  | 12 => 0xF000#16
  | 13 => 0xF000#16
  | 14 => 0xF000#16
  | 15 => 0xF000#16
  | _  => 0xFFFF#16

/-- "An assembler should emit them as 0" (R68): no ignored bit of the word is set. The machine does not ask for it. -/
def Word.canonical (ir : Word) : Bool := ir &&& fieldMask ir == ir

/-! ## The host's table words -/

/-- An instruction of the opcode table given as a number: bit 0 of `w` is bit 0 of the word, bits from `nbits` up are 0. The
word is laid out as two bytes in the default byte order and given to `decodeBytes`. -/
def decodeTableWord (nbits w : Nat) : Option Instr :=
  if w % 2 ^ nbits < 2 ^ 16 then
    let b := bytesOfWord Config.default (BitVec.ofNat 16 (w % 2 ^ nbits))
    match decodeBytes Config.default [b.1, b.2] with
    | .ok (i, _) => some i
    | .error _ => none
  else none

end Sys2Proof
end

