-- ==== Sys2Proof/Machine/State.lean ====
section
/-! DEFINITION. The state of the machine (10_state.md: "everything listed in this file and nothing else"), its reset value
(R29, R190), and the reasons a step can stop. -/

namespace Sys2Proof.Machine

/-- A store's bytes that differ from what an unlisted address reads as: (address, byte) pairs in the canonical form
`Memory.wf` (Ops.lean). -/
abbrev Memory := List Host.Cell

/-- `IDL`, written by IF, read by ID (R20). -/
structure IdLatch where
  ir : Word
  pc : Byte
  deriving DecidableEq, Repr

/-- `EXL`, written by ID, read by EX (R20). -/
structure ExLatch where
  ir : Word
  pc : Byte
  a  : Byte
  b  : Byte
  deriving DecidableEq, Repr

/-- `MEML`, written by EX, read by MEM (R20). `cond` is the "condition flag" of the latch bundle (R25, D30). -/
structure MemLatch where
  ir   : Word
  pc   : Byte
  alu  : Byte
  cond : Bool
  deriving DecidableEq, Repr

/-- `WBL`, written by MEM, read by WB (R20). -/
structure WbLatch where
  ir  : Word
  pc  : Byte
  val : Byte
  deriving DecidableEq, Repr

/-- The eight statistics counters (R24). -/
structure Stats where
  cycles     : Nat
  nArith     : Nat
  nLogic     : Nat
  nData      : Nat
  nCtrl      : Nat
  nHalt      : Nat
  dataStalls : Nat
  ctrlStalls : Nat
  deriving DecidableEq, Repr

/-- The stage function being evaluated on behalf of an instruction, in the order of the cycle (R80). IF is not among them: it
has no input latch (R18), holds no instruction and performs no decode (R87). -/
inductive Stage where
  | wb | mem | ex | id
  deriving DecidableEq, Repr

/-- The whole machine. The fields down to `stats` are the state of 10_state.md; `cfg` is the configuration record of R5,
constant in every run; `flushed` and `stage` are signals within one evaluation of the cycle function (R23, log entry 2), at
`false` and `.wb` between cycles. -/
structure State where
  /-- `R[0]` to `R[15]` (R10). -/
  regs : Vector Byte 16
  /-- `busy[0]` to `busy[15]`, the scoreboard (R12). -/
  busy : Vector Bool 16
  /-- `PC`, the fetch program counter (R14). -/
  pc : Byte
  /-- The Instruction Store (R15). -/
  imem : Memory
  /-- The Data Store (R16). -/
  dmem : Memory
  /-- The fetch enable (R18). -/
  ifOccupied : Bool
  idOccupied : Bool     -- R17
  exOccupied : Bool     -- R17
  memOccupied : Bool    -- R17
  wbOccupied : Bool     -- R17
  idStalled : Bool      -- R19
  exStalled : Bool      -- R19
  memStalled : Bool     -- R19
  wbStalled : Bool      -- R19
  idl : IdLatch         -- R20
  exl : ExLatch         -- R20
  meml : MemLatch       -- R20
  wbl : WbLatch         -- R20
  /-- A HALT has issued (R21). -/
  haltSeen : Bool
  /-- A HALT has retired; the terminal state (R22). -/
  halted : Bool
  /-- The statistics counters (R24). -/
  stats : Stats
  /-- The parameters of R5; not state of the spec, log entry 1. -/
  cfg : Config
  /-- A flush happened earlier in this cycle (R23). -/
  flushed : Bool
  /-- The stage function being evaluated (the model's own, log entry 2). -/
  stage : Stage
  deriving DecidableEq, Repr

/-- Right after reset: R29 with the registers and both stores at zero (R190). The latch fields are at 0, which R29 allows
(log entry 3). -/
def State.reset : State where
  regs := Vector.replicate 16 0
  busy := Vector.replicate 16 false
  pc := 0
  imem := []
  dmem := []
  ifOccupied := true
  idOccupied := false
  exOccupied := false
  memOccupied := false
  wbOccupied := false
  idStalled := false
  exStalled := false
  memStalled := false
  wbStalled := false
  idl := { ir := 0, pc := 0 }
  exl := { ir := 0, pc := 0, a := 0, b := 0 }
  meml := { ir := 0, pc := 0, alu := 0, cond := false }
  wbl := { ir := 0, pc := 0, val := 0 }
  haltSeen := false
  halted := false
  stats := { cycles := 0, nArith := 0, nLogic := 0, nData := 0, nCtrl := 0, nHalt := 0, dataStalls := 0, ctrlStalls := 0 }
  cfg := Config.default
  flushed := false
  stage := .wb

/-- Why the machine has no next state. The core raises no exception of any kind (R170, R171). -/
inductive Fault where
  /-- Raised by `step` in a state with `halted = 1`: "the halted state is terminal and has no successor" (R84, D25, U12). A
  stuck state, not an error. Safe: the model stops where the hardware stops. -/
  | terminal
  deriving DecidableEq, Repr

/-- Why an instruction has no meaning here. -/
inductive Refusal where
  /-- Raised by an arm of `exec` whose instruction has no meaning yet, with its mnemonic. Safe. No arm raises it. -/
  | notModelled (mnemonic : String)
  deriving DecidableEq, Repr

/-- What evaluating a stage function, or a step, answers. -/
abbrev Result := Host.Outcome State Fault Refusal

end Sys2Proof.Machine
end

