-- ==== Sys2Proof/Machine/Ops.lean ====
section
/-! DEFINITION. The named operations over registers, the scoreboard, the stores, the counters and the latches; every meaning
and every stage function is written in them. There is no operation that takes an exception and none that returns from one:
the hardware has neither (R170, R175, R176). -/

namespace Sys2Proof.Machine

/-! ## Sequencing -/

/-- One evaluation after another (R80): the second sees every change the first made; a stop stays a stop. -/
def andThen (r : Result) (f : State → Result) : Result :=
  match r with
  | .next s => f s
  | .fault e => .fault e
  | .refused e => .refused e

/-- The state as the stage function `st` is about to be evaluated. -/
def State.atStage (s : State) (st : Stage) : State := { s with stage := st }

/-! ## Registers and scoreboard (R7, R10 to R12) -/

/-- `x[i]`: "always succeeds" and does not look at `busy[i]` (R7, R10). Register 0 is read like any other (R11). -/
def State.x (s : State) (i : RegIdx) : Byte := s.regs[i]

/-- `x[i] <- v`: nothing happens for `i = 0` (R7, R11). -/
def State.writeReg (s : State) (i : RegIdx) (v : Byte) : State :=
  if i = 0 then s else { s with regs := s.regs.set i v }

/-- `busy[i]` (R7, R12). -/
def State.isBusy (s : State) (i : RegIdx) : Bool := s.busy[i]

/-- `busy[i] <- b`, for every `i` including 0 (R7, R12). -/
def State.setBusy (s : State) (i : RegIdx) (b : Bool) : State := { s with busy := s.busy.set i b }

/-! ## The stores (R15, R16, R40 to R47) -/

/-- What an address that a store does not list reads as: "bytes the host did not supply read as 0x00" (R29, R45, R193). -/
def Memory.unlisted : Byte := 0

/-- The byte at an address. -/
def Memory.read : Memory → Nat → Byte
  | [], _ => Memory.unlisted
  | (k, v) :: m, a => if k = a then v else Memory.read m a

/-- Adds the cell `(a, v)` before the first greater address, in the place of a cell already there; a value equal to
`Memory.unlisted` is not listed. -/
def Memory.write : Memory → Nat → Byte → Memory
  | [], a, v => if v = Memory.unlisted then [] else [(a, v)]
  | (k, u) :: m, a, v =>
    if k < a then (k, u) :: Memory.write m a v
    else
      let rest := if k = a then m else (k, u) :: m
      if v = Memory.unlisted then rest else (a, v) :: rest

/-- The canonical form: addresses strictly rising, none equal to or above `STORE_SIZE`, no cell at the unlisted value. -/
def Memory.wf : Memory → Bool
  | [] => true
  | [(k, v)] => decide (k < storeSize) && decide (v ≠ Memory.unlisted)
  | (k, v) :: (k', v') :: m =>
    decide (k < k') && decide (k < storeSize) && decide (v ≠ Memory.unlisted) && Memory.wf ((k', v') :: m)

/-- "Addresses are always taken modulo the store size" (R41). -/
def addrOf (a : Byte) : Nat := a.toNat % storeSize

/-- `IMemRead(addr)` (R7, R15). -/
def State.imemRead (s : State) (a : Byte) : Byte := Memory.read s.imem (addrOf a)

/-- `MemRead(addr, 1)` (R7, R46). -/
def State.memRead (s : State) (a : Byte) : Byte := Memory.read s.dmem (addrOf a)

/-- `MemWrite(addr, 1, v)` (R7, R46). -/
def State.memWrite (s : State) (a v : Byte) : State := { s with dmem := Memory.write s.dmem (addrOf a) v }

/-- The instruction word at an address: two byte reads, the second at `a + 1` modulo the store size (R43, R45, R87). -/
def State.fetchWord (s : State) (a : Byte) : Word := wordOfBytes s.cfg (s.imemRead a) (s.imemRead (a + 1))

/-- The host's load port of the Instruction Store, used before the first cycle only (R191 `imem_load`). -/
def State.imemLoad (s : State) (a v : Byte) : State := { s with imem := Memory.write s.imem (addrOf a) v }

/-- A word written to the Instruction Store at `a` and `a + 1` in the machine's byte order (R43). -/
def State.imemLoadWord (s : State) (a : Byte) (ir : Word) : State :=
  (s.imemLoad a (bytesOfWord s.cfg ir).1).imemLoad (a + 1) (bytesOfWord s.cfg ir).2

/-! ## Counters (R24, R85, R90, R92, R99) -/

/-- The count after `k` more: unbounded when `CTR_WIDTH` is `none` (D15); with a width, exact while it fits, a free value of
that width when it does not. After an overflow the counter counts on from that free value by the same rule; N11 is silent on
this too, so both are DESIGN CHOICE (log entry 9). -/
def countUp (cfg : Config) (n k : Nat) : Nat :=
  match cfg.ctrWidth with
  | none => n + k
  | some w => if n + k < 2 ^ w then n + k else Config.counterOverflow w (n + k) % 2 ^ w

/-- `cycles++` (R85). -/
def State.countCycle (s : State) : State :=
  { s with stats := { s.stats with cycles := countUp s.cfg s.stats.cycles 1 } }

/-- `data_stalls++`, and nothing else (R90). -/
def State.countDataStall (s : State) : State :=
  { s with stats := { s.stats with dataStalls := countUp s.cfg s.stats.dataStalls 1 } }

/-- `ctrl_stalls += 2` (R92). -/
def State.countCtrlStall (s : State) : State :=
  { s with stats := { s.stats with ctrlStalls := countUp s.cfg s.stats.ctrlStalls 2 } }

/-- The class counter of a retiring instruction (R99). -/
def State.countClass (s : State) (c : InstrClass) : State :=
  { s with stats :=
    match c with
    | .arith => { s.stats with nArith := countUp s.cfg s.stats.nArith 1 }
    | .logic => { s.stats with nLogic := countUp s.cfg s.stats.nLogic 1 }
    | .data => { s.stats with nData := countUp s.cfg s.stats.nData 1 }
    | .ctrl => { s.stats with nCtrl := countUp s.cfg s.stats.nCtrl 1 }
    | .halt => { s.stats with nHalt := countUp s.cfg s.stats.nHalt 1 } }

/-- Total instructions, a function of the class counters (R24, D13). -/
def Stats.nTotal (t : Stats) : Nat := t.nArith + t.nLogic + t.nData + t.nCtrl + t.nHalt

/-- Total stalls (R24, D11). -/
def Stats.stallsTotal (t : Stats) : Nat := t.dataStalls + t.ctrlStalls

/-! ## Branch resolution (R96, R97) -/

/-- `resolve_match()`: the Decode and Execute stall flags are released, and nothing else changes (R96). -/
def State.resolveMatch (s : State) : State := { s with idStalled := false, exStalled := false }

/-- `flush(target)` (R97). `ifOccupied` stays as it is (R18); registers, busy bits, stores, `haltSeen`, `halted` and counters
are not touched. -/
def State.flush (s : State) (target : Byte) : State :=
  { s with
    idOccupied := false, exOccupied := false, memOccupied := false, wbOccupied := false
    idStalled := false, exStalled := false, memStalled := false, wbStalled := false
    pc := target, flushed := true }

/-! ## Moving an instruction from one latch to the next (R81 step 3) -/

/-- Issue: ID consumes `IDL` and deposits into `EXL` the word, its address and the operand values (R88). -/
def State.issue (s : State) (a b : Byte) : State :=
  { s with idOccupied := false, exl := { ir := s.idl.ir, pc := s.idl.pc, a := a, b := b }, exOccupied := true }

/-- EX consumes `EXL` and deposits its result into `MEML` (R93). -/
def State.toMem (s : State) (alu : Byte) (cond : Bool) : State :=
  { s with exOccupied := false, meml := { ir := s.exl.ir, pc := s.exl.pc, alu := alu, cond := cond }, memOccupied := true }

/-- The first half of MEM's advance: `MEML` is consumed before MEM acts (R95). -/
def State.consumeMem (s : State) : State := { s with memOccupied := false }

/-- The second half: MEM deposits into `WBL` after it acted (R95). -/
def State.toWb (s : State) (val : Byte) : State :=
  { s with wbl := { ir := s.meml.ir, pc := s.meml.pc, val := val }, wbOccupied := true }

/-- WB consumes `WBL` (R98). -/
def State.consumeWb (s : State) : State := { s with wbOccupied := false }

/-- The control stall of a JMP or BEQZ that issues (R92). -/
def State.controlStall (s : State) : State := { s.countCtrlStall with idStalled := true }

/-- The effect of a HALT that issues: fetch and decode are disabled (R92, R18, R21). -/
def State.stopFetch (s : State) : State := { s with haltSeen := true, ifOccupied := false }

/-- MEM for JMP and BEQZ: the target is compared with the live `PC`; a match releases the stall flags, a difference flushes
(R95, R96, R97). -/
def State.resolve (s : State) (target : Byte) : State :=
  if target = s.pc then s.resolveMatch else s.flush target

/-- WB of a result-producing instruction: `x[d] <- WBL.val ; busy[d] <- 0`, then the class counter (R98, R99). The busy bit is
cleared even for register 0, whose write is ignored. -/
def State.retireResult (s : State) (d : RegIdx) (c : InstrClass) : State :=
  ((s.consumeWb.writeReg d s.wbl.val).setBusy d false).countClass c

end Sys2Proof.Machine
end

