-- ==== Sys2Proof/Machine/Flags.lean ====
section
/-! DEFINITION. Flags. The hardware has no status flags and no condition codes: "no overflow signaling" (R25). The one thing
the source calls a condition flag is the `cond` field of `MEML`, which EX computes and nothing reads (R20, R93, D30). -/

namespace Sys2Proof.Machine

/-- `cond` of BEQZ: all 8 bits of the condition value are zero (R93, R152). -/
def condZero (a : Byte) : Bool := a == 0

/-- `cond` of JMP is 1 (R93). -/
def condAlways : Bool := true

/-- `cond` of every other opcode is 0 (R93). -/
def condNone : Bool := false

end Sys2Proof.Machine
end

