-- ==== Sys2Proof/Machine/Operands.lean ====
section
/-! DEFINITION. Operand forms: the hazard check and the issue of operands (R88 to R91), the immediates (R64, R67), the
effective address (R140), the branch target (R150), the ALU functions (R93), and the derived attributes of R77. -/

namespace Sys2Proof.Machine

/-! ## Hazard check and issue (R89, R90, R91) -/

/-- Some register of the list is busy (R89). -/
def State.hazard (s : State) (srcs : List RegIdx) : Bool := srcs.any s.isBusy

/-- ID's step 3 for an instruction that reads `srcs`: while one of them is busy, one data stall is counted and nothing else
happens (R90); otherwise `go`, the issue, takes place (R91, R92). -/
def State.checked (s : State) (srcs : List RegIdx) (go : State → State) : State :=
  if s.hazard srcs then s.countDataStall else go s

/-- Issue of an instruction with destination `d`: the busy bit is set, register 0's too (R91, R12). -/
def State.issueTo (s : State) (d : RegIdx) (a b : Byte) : State := (s.setBusy d true).issue a b

/-! ## Immediates, addresses, targets -/

/-- `off`: the load/store offset, zero-extended, or sign-extended when `IMM4_SIGNED` (R64). -/
def offset (cfg : Config) (imm4 : BitVec 4) : Byte :=
  if cfg.imm4Signed then imm4.signExtend 8 else imm4.zeroExtend 8

/-- `ea = (base + off) mod 256` (R140). -/
def effectiveAddress (cfg : Config) (base : Byte) (imm4 : BitVec 4) : Byte := base + offset cfg imm4

/-- The displacement `imm8 << 1` modulo 256, `{imm8[6:0], 0}` (R67). -/
def displacement (imm8 : BitVec 8) : Byte := imm8 <<< 1

/-- The target of a JMP or a taken BEQZ, from the live `PC` (R93, R150). -/
def branchTarget (pc : Byte) (imm8 : BitVec 8) : Byte := pc + displacement imm8

/-- `alu` of BEQZ: the target when the condition value is zero, else `PC` (R93, R152). -/
def beqzTarget (pc a : Byte) (imm8 : BitVec 8) : Byte := if a = 0 then branchTarget pc imm8 else pc

/-! ## The ALU (R93, R129): 8-bit, wrapping, no carry and no overflow kept -/

def aluAdd (a b : Byte) : Byte := a + b
def aluSub (a b : Byte) : Byte := a - b
def aluMul (a b : Byte) : Byte := a * b
def aluInc (a _b : Byte) : Byte := a + 1
def aluAnd (a b : Byte) : Byte := a &&& b
def aluOr (a b : Byte) : Byte := a ||| b
def aluNot (a _b : Byte) : Byte := ~~~a
def aluXor (a b : Byte) : Byte := a ^^^ b

/-! ## The derived attributes of an instruction (R77; the columns of R69) -/

/-- `srcs(ir)`: the registers whose busy bit ID tests (R69, R89). -/
def srcs : Instr → List RegIdx
  | .add _ s t => [s, t]
  | .sub _ s t => [s, t]
  | .mul _ s t => [s, t]
  | .inc r => [r]
  | .and _ s t => [s, t]
  | .or _ s t => [s, t]
  | .not _ s => [s]
  | .xor _ s t => [s, t]
  | .load _ b _ => [b]
  | .store v b _ => [v, b]
  | .jmp _ => []
  | .beqz c _ => [c]
  | .undef12 => []
  | .undef13 => []
  | .undef14 => []
  | .halt => []

/-- `dst(ir)`: the register marked busy at issue and written at retire (R69). -/
def dst : Instr → Option RegIdx
  | .add d _ _ => some d
  | .sub d _ _ => some d
  | .mul d _ _ => some d
  | .inc r => some r
  | .and d _ _ => some d
  | .or d _ _ => some d
  | .not d _ => some d
  | .xor d _ _ => some d
  | .load d _ _ => some d
  | .store _ _ _ => none
  | .jmp _ => none
  | .beqz _ _ => none
  | .undef12 => none
  | .undef13 => none
  | .undef14 => none
  | .halt => none

/-- `class(ir)`: the statistics class, absent for opcodes 12 to 14 (R69, R99). -/
def instrClass : Instr → Option InstrClass
  | .add _ _ _ => some .arith
  | .sub _ _ _ => some .arith
  | .mul _ _ _ => some .arith
  | .inc _ => some .arith
  | .and _ _ _ => some .logic
  | .or _ _ _ => some .logic
  | .not _ _ => some .logic
  | .xor _ _ _ => some .logic
  | .load _ _ _ => some .data
  | .store _ _ _ => some .data
  | .jmp _ => some .ctrl
  | .beqz _ _ => some .ctrl
  | .undef12 => none
  | .undef13 => none
  | .undef14 => none
  | .halt => some .halt

/-- The instruction is a JMP or a BEQZ. -/
def isControl (i : Instr) : Bool := decide (instrClass i = some .ctrl)

end Sys2Proof.Machine
end

