-- ==== Sys2Proof/Machine/Arith.lean ====
section
/-! DEFINITION. ADD, SUB, MUL, INC (R121 to R124) and the path all eight result-producing register instructions share (R120). -/

namespace Sys2Proof.Machine

/-- The stage actions of R120: ID checks `srcs`, reads the operand values `a` and `b` and marks `dest` busy; EX computes
`alu a b`; MEM passes it on; WB writes `dest`, clears its busy bit and counts the class `c`. -/
def resultOp (srcs : List RegIdx) (a b : Byte) (dest : RegIdx) (c : InstrClass) (alu : Byte → Byte → Byte) (s : State) :
    Result :=
  match s.stage with
  | .id => .next (s.checked srcs fun s => s.issueTo dest a b)
  | .ex => .next (s.toMem (alu s.exl.a s.exl.b) condNone)
  | .mem => .next (s.consumeMem.toWb s.meml.alu)
  | .wb => .next (s.retireResult dest c)

/-- ADD (R121). -/
def execAdd (dest src1 src2 : RegIdx) (s : State) : Result :=
  resultOp [src1, src2] (s.x src1) (s.x src2) dest .arith aluAdd s

/-- SUB (R122): `src1` is the minuend. -/
def execSub (dest src1 src2 : RegIdx) (s : State) : Result :=
  resultOp [src1, src2] (s.x src1) (s.x src2) dest .arith aluSub s

/-- MUL (R123): the low 8 bits of the product. -/
def execMul (dest src1 src2 : RegIdx) (s : State) : Result :=
  resultOp [src1, src2] (s.x src1) (s.x src2) dest .arith aluMul s

/-- INC (R124): one register, source and destination; `b` is 0, unused (R91). -/
def execInc (reg : RegIdx) (s : State) : Result :=
  resultOp [reg] (s.x reg) 0 reg .arith aluInc s

end Sys2Proof.Machine
end

