-- ==== Sys2Proof/Machine/Control.lean ====
section
/-! DEFINITION. JMP and BEQZ (R150 to R153). -/

namespace Sys2Proof.Machine

/-- EX of a control instruction: the target goes to `MEML` and EX asserts its own stall flag, whatever the condition
(R93, R94). -/
def State.toMemControl (s : State) (target : Byte) (cond : Bool) : State :=
  { s.toMem target cond with exStalled := true }

/-- JMP (R151): no register, no hazard check. -/
def execJmp (imm8 : BitVec 8) (s : State) : Result :=
  match s.stage with
  | .id => .next (s.issue 0 0).controlStall
  | .ex => .next (s.toMemControl (branchTarget s.pc imm8) condAlways)
  | .mem => .next ((s.consumeMem.resolve s.meml.alu).toWb s.meml.alu)
  | .wb => .next (s.consumeWb.countClass .ctrl)

/-- BEQZ (R152): the condition register is checked first, the control stall charged only when it is free. -/
def execBeqz (condReg : RegIdx) (imm8 : BitVec 8) (s : State) : Result :=
  match s.stage with
  | .id => .next (s.checked [condReg] fun s => (s.issue (s.x condReg) 0).controlStall)
  | .ex => .next (s.toMemControl (beqzTarget s.pc s.exl.a imm8) (condZero s.exl.a))
  | .mem => .next ((s.consumeMem.resolve s.meml.alu).toWb s.meml.alu)
  | .wb => .next (s.consumeWb.countClass .ctrl)

end Sys2Proof.Machine
end

