-- ==== Sys2Proof/Machine/Data.lean ====
section
/-! DEFINITION. LOAD and STORE (R140 to R143). -/

namespace Sys2Proof.Machine

/-- LOAD (R141): ID checks and reads the base and marks `dest` busy; EX adds the offset; MEM reads the Data Store; WB writes
the loaded byte. -/
def execLoad (dest base : RegIdx) (imm4 : BitVec 4) (s : State) : Result :=
  match s.stage with
  | .id => .next (s.checked [base] fun s => s.issueTo dest (s.x base) 0)
  | .ex => .next (s.toMem (effectiveAddress s.cfg s.exl.a imm4) condNone)
  | .mem => .next (s.consumeMem.toWb (s.memRead s.meml.alu))
  | .wb => .next (s.retireResult dest .data)

/-- STORE (R142): ID checks both registers and marks none busy; EX adds the offset to the base read at ID; MEM writes the
value register as it stands NOW (R143), not `b` as latched at ID; WB only counts. -/
def execStore (valueReg base : RegIdx) (imm4 : BitVec 4) (s : State) : Result :=
  match s.stage with
  | .id => .next (s.checked [valueReg, base] fun s => s.issue (s.x base) (s.x valueReg))
  | .ex => .next (s.toMem (effectiveAddress s.cfg s.exl.a imm4) condNone)
  | .mem => .next ((s.consumeMem.memWrite s.meml.alu (s.x valueReg)).toWb s.meml.alu)
  | .wb => .next (s.consumeWb.countClass .data)

end Sys2Proof.Machine
end

