-- ==== Sys2Proof/Machine/Logic.lean ====
section
/-! DEFINITION. AND, OR, NOT, XOR (R125 to R128), over the shared path of R120. -/

namespace Sys2Proof.Machine

/-- AND (R125). -/
def execAnd (dest src1 src2 : RegIdx) (s : State) : Result :=
  resultOp [src1, src2] (s.x src1) (s.x src2) dest .logic aluAnd s

/-- OR (R126). -/
def execOr (dest src1 src2 : RegIdx) (s : State) : Result :=
  resultOp [src1, src2] (s.x src1) (s.x src2) dest .logic aluOr s

/-- NOT (R127): the source is the field at `ir[7:4]`; `b` is 0, unused (R91). -/
def execNot (dest src : RegIdx) (s : State) : Result :=
  resultOp [src] (s.x src) 0 dest .logic aluNot s

/-- XOR (R128). -/
def execXor (dest src1 src2 : RegIdx) (s : State) : Result :=
  resultOp [src1, src2] (s.x src1) (s.x src2) dest .logic aluXor s

end Sys2Proof.Machine
end

