-- ==== Sys2Proof/Machine/System.lean ====
section
/-! DEFINITION. HALT (R160) and the undefined opcodes 12, 13, 14, which are silent no-ops (R161). -/

namespace Sys2Proof.Machine

/-- HALT (R160): at issue it disables fetch and decode; at retire it sets `halted` and is counted. -/
def execHalt (s : State) : Result :=
  match s.stage with
  | .id => .next (s.issue 0 0).stopFetch
  | .ex => .next (s.toMem 0 condNone)
  | .mem => .next (s.consumeMem.toWb s.meml.alu)
  | .wb => .next ({ s.consumeWb with halted := true }.countClass .halt)

/-- A word that takes a slot in every stage and touches nothing: no register, no busy bit, no stall flag, no counter (R161). -/
def silentOp (s : State) : Result :=
  match s.stage with
  | .id => .next (s.issue 0 0)
  | .ex => .next (s.toMem 0 condNone)
  | .mem => .next (s.consumeMem.toWb s.meml.alu)
  | .wb => .next s.consumeWb

/-- Opcode 12 (R161). -/
def execUndef12 (s : State) : Result := silentOp s

/-- Opcode 13 (R161). -/
def execUndef13 (s : State) : Result := silentOp s

/-- Opcode 14 (R161). -/
def execUndef14 (s : State) : Result := silentOp s

end Sys2Proof.Machine
end

