-- ==== Sys2Proof/Machine/Dispatch.lean ====
section
/-! DEFINITION. The meaning of an instruction: what the stage `s.stage` does with it, one arm per constructor. -/

namespace Sys2Proof.Machine

/-- The action of the stage function `s.stage` on the instruction `i` that its input latch holds. -/
def exec (i : Instr) (s : State) : Host.Outcome State Fault Refusal :=
  match i with
  | .add dest src1 src2 => Sys2Proof.Machine.execAdd dest src1 src2 s
  | .sub dest src1 src2 => Sys2Proof.Machine.execSub dest src1 src2 s
  | .mul dest src1 src2 => Sys2Proof.Machine.execMul dest src1 src2 s
  | .inc reg => Sys2Proof.Machine.execInc reg s
  | .and dest src1 src2 => Sys2Proof.Machine.execAnd dest src1 src2 s
  | .or dest src1 src2 => Sys2Proof.Machine.execOr dest src1 src2 s
  | .not dest src => Sys2Proof.Machine.execNot dest src s
  | .xor dest src1 src2 => Sys2Proof.Machine.execXor dest src1 src2 s
  | .load dest base imm4 => Sys2Proof.Machine.execLoad dest base imm4 s
  | .store valueReg base imm4 => Sys2Proof.Machine.execStore valueReg base imm4 s
  | .jmp imm8 => Sys2Proof.Machine.execJmp imm8 s
  | .beqz condReg imm8 => Sys2Proof.Machine.execBeqz condReg imm8 s
  | .undef12 => Sys2Proof.Machine.execUndef12 s
  | .undef13 => Sys2Proof.Machine.execUndef13 s
  | .undef14 => Sys2Proof.Machine.execUndef14 s
  | .halt => Sys2Proof.Machine.execHalt s

end Sys2Proof.Machine
end

