-- ==== Sys2Proof/Machine/Pipeline.lean ====
section
/-! DEFINITION. The pipeline engine (40_pipeline_engine.md): the five stage functions with the stage-advance protocol of R81,
and the cycle function of R80. WB, MEM, EX and ID run the meaning of the instruction in their latch (`exec`, at that stage);
IF fetches. -/

namespace Sys2Proof.Machine

/-- Step 3 of the protocol: stage `st` acts on the instruction whose word is in its latch (R77, R81). -/
def act (st : Stage) (ir : Word) (s : State) : Result := exec (decode ir) (s.atStage st)

/-- WB (R98): step 1 only, "there is no step 2" (R82). -/
def wbStage (s : State) : Result :=
  if !s.wbOccupied || s.wbStalled then .next s else act .wb s.wbl.ir s

/-- MEM (R95). -/
def memStage (s : State) : Result :=
  if !s.memOccupied || s.memStalled then .next s
  else if s.wbOccupied || s.wbStalled then .next s
  else act .mem s.meml.ir s

/-- EX (R93). -/
def exStage (s : State) : Result :=
  if !s.exOccupied || s.exStalled then .next s
  else if s.memOccupied || s.memStalled then .next s
  else act .ex s.exl.ir s

/-- ID (R88): `halt_seen` stops it as its own stall flag does (R21). -/
def idStage (s : State) : Result :=
  if !s.idOccupied || s.idStalled || s.haltSeen then .next s
  else if s.exOccupied || s.exStalled then .next s
  else act .id s.idl.ir s

/-- The fetch itself: the word at `PC` goes to `IDL` with its address, and `PC` advances by 2 modulo 256 (R87). -/
def State.fetch (s : State) : State :=
  { s with idl := { ir := s.fetchWord s.pc, pc := s.pc }, idOccupied := true, pc := s.pc + 2 }

/-- IF (R87): nothing while fetch is disabled, in a flush cycle, or while the ID latch is full or stalled. `ifOccupied` is the
fetch enable and is not consumed (R18). -/
def ifStage (s : State) : State :=
  if !s.ifOccupied || s.flushed then s
  else if s.idOccupied || s.idStalled then s
  else s.fetch

/-- The signals that live within one cycle are put back: `flushed` to 0 (R23) and the stage to its resting value. -/
def State.rest (s : State) : State := { s with flushed := false, stage := .wb }

/-- The cycle function (R80): WB, MEM, EX, ID, IF, each to completion, then `cycles++` (R85). -/
def cycle (s : State) : Result :=
  andThen (wbStage s.rest) fun s =>
  andThen (memStage s) fun s =>
  andThen (exStage s) fun s =>
  andThen (idStage s) fun s =>
  .next (ifStage s).countCycle.rest

/-- The run loop's test (R84): no cycle is evaluated once `halted = 1`. -/
def guardedCycle (s : State) : Result :=
  if s.halted then .fault .terminal else cycle s

/-- `s` as it stands just after IF fetched the word `ir`, placed at `PC`, into an empty pipeline: the word is in the Instruction
Store at `PC` and in `IDL`, nothing older is in flight, and nothing keeps ID from taking it up. -/
def State.withFetched (s : State) (ir : Word) : State :=
  { (s.imemLoadWord s.pc ir).fetch with
    ifOccupied := true, exOccupied := false, memOccupied := false, wbOccupied := false
    idStalled := false, exStalled := false, memStalled := false, wbStalled := false
    haltSeen := false, halted := false }

end Sys2Proof.Machine
end

