-- ==== Sys2Proof/Machine/Step.lean ====
section
/-! DEFINITION. One step is one cycle: "its step is the cycle function" (R8, R80, R84). -/

namespace Sys2Proof.Machine

/-- One clock edge (R80, R84, R191): the cycle function, or the terminal stop when `halted = 1`. -/
def step (s : State) : Host.Outcome State Fault Refusal := guardedCycle s

/-- The word `w` (bits from `nbits` up are 0) as the next instruction the machine takes up: the very next step runs its
meaning in ID (log entry 11). -/
def State.withFetchWord (s : State) (nbits w : Nat) : State := s.withFetched (BitVec.ofNat 16 (w % 2 ^ nbits))

end Sys2Proof.Machine
end

