-- ==== Sys2Proof/WellFormed.lean ====
section
/-! DEFINITION. What is checked before the machine sees it. An instruction needs no check: every register index and immediate
of every format is legal (R63, R72), and the types of `Instr`'s fields hold exactly those values. What can be ill-formed is
what stands outside the core: a word an assembler emits (R68, R73) and the initial images a host loads (R193, D28). -/

namespace Sys2Proof

/-- Every `Instr` is well formed: all 16 values are legal in every register field (R63), all values in every immediate field,
and "there is no illegal encoding" (R72). One arm per constructor, so that a new one must say what it checks. -/
def Instr.wellFormed : Instr → Bool
  | .add _ _ _ => true
  | .sub _ _ _ => true
  | .mul _ _ _ => true
  | .inc _ => true
  | .and _ _ _ => true
  | .or _ _ _ => true
  | .not _ _ => true
  | .xor _ _ _ => true
  | .load _ _ _ => true
  | .store _ _ _ => true
  | .jmp _ => true
  | .beqz _ _ => true
  | .undef12 => true
  | .undef13 => true
  | .undef14 => true
  | .halt => true

/-- The initial images of R193: three streams of byte tokens, `R_INIT`, `IMEM_INIT` and `DMEM_INIT` of R5. Token `k` of the
register stream is the launch value of `R[k]`, register 0 included (D17); token `k` of a store's stream is its byte `k`. -/
structure LaunchImage where
  regs : List Byte := []
  imem : List Byte := []
  dmem : List Byte := []
  deriving DecidableEq, Repr

/-- No stream has more tokens than there are slots: a surplus token belongs to no launch state (R193, D28, U14). -/
def LaunchImage.wellFormed (img : LaunchImage) : Bool :=
  decide (img.regs.length ≤ numRegs) && decide (img.imem.length ≤ storeSize) && decide (img.dmem.length ≤ storeSize)

end Sys2Proof
end

