-- ==== Sys2Proof/Machine/HostPort.lean ====
section
/-! DEFINITION. The host's side of the core (R191 to R196): launching it from the initial images while reset is asserted, and
reading it after the halt. Between launch and halt the host has no transition at all (R28, R195, U13): there is none here. -/

namespace Sys2Proof.Machine

/-- The store whose byte `k + j` is token `j` of the stream, and whose other bytes are 0 (R193). -/
def Memory.ofTokens (k : Nat) : List Byte → Memory
  | [] => []
  | v :: vs => if v = Memory.unlisted then Memory.ofTokens (k + 1) vs else (k, v) :: Memory.ofTokens (k + 1) vs

/-- The launch state (R29, R190, R192, R193): reset, then the images. A register without a token is 0; register 0 takes its
token like any other (D17). `none` where a stream has surplus tokens: that is no launch state (D28, U14). -/
def State.launch (cfg : Config) (img : LaunchImage) : Option State :=
  if img.wellFormed then
    some { State.reset with
      regs := Vector.ofFn fun i => img.regs.getD i.val 0
      imem := Memory.ofTokens 0 img.imem
      dmem := Memory.ofTokens 0 img.dmem
      cfg := cfg }
  else none

/-- `reg_load(idx, byte)`: the host's write port of the register file, "all 16 indices including 0" (R191), usable only under
reset. -/
def State.regLoad (s : State) (i : RegIdx) (v : Byte) : State := { s with regs := s.regs.set i v }

/-- `dmem_load(addr, byte)` (R191), usable only under reset. -/
def State.dmemLoad (s : State) (a v : Byte) : State := s.memWrite a v

/-- `dumpImage()`: all 256 bytes of the Data Store in address order (R16, R196). -/
def State.dumpImage (s : State) : List Byte := (List.range storeSize).map (Memory.read s.dmem)

/-- What the host may read after the halt (R196): the Data Store, the registers, the eight counters. -/
structure HostView where
  dmem : List Byte
  regs : Vector Byte 16
  stats : Stats
  deriving DecidableEq, Repr

/-- "Meaningful when `halted = 1`" (R191): before the halt the host sees nothing. -/
def State.hostView (s : State) : Option HostView :=
  if s.halted then some { dmem := s.dumpImage, regs := s.regs, stats := s.stats } else none

end Sys2Proof.Machine
end

