-- ==== Sys2Proof/Machine/Sequential.lean ====
section
/-! DEFINITION. One instruction at a time (R8, R206): an instruction passing alone through ID, EX, MEM and WB. It is no second
semantics: it is the same `exec`, once for each stage. The machine itself is `cycle` (Pipeline.lean). -/

namespace Sys2Proof.Machine

/-- The four stage actions of `i` one after the other, with nothing else in between. -/
def runAlone (i : Instr) (s : State) : Result :=
  andThen (exec i (s.atStage .id)) fun s =>
  andThen (exec i (s.atStage .ex)) fun s =>
  andThen (exec i (s.atStage .mem)) fun s =>
  exec i (s.atStage .wb)

/-- Each of the four stage actions of `i` answers a next state, and the last one is `t`. -/
def Passes (i : Instr) (s t : State) : Prop :=
  ∃ s₁ s₂ s₃, exec i (s.atStage .id) = .next s₁ ∧ exec i (s₁.atStage .ex) = .next s₂ ∧
    exec i (s₂.atStage .mem) = .next s₃ ∧ exec i (s₃.atStage .wb) = .next t

/-- The instruction the fetch program counter points at. -/
def State.nextInstr (s : State) : Instr := decode (s.fetchWord s.pc)

/-- The one-at-a-time interpretation of R206: fetch the word at `PC`, let it pass alone, repeat until a HALT has retired. -/
def seqStep (s : State) : Result :=
  if s.halted then .fault .terminal
  else andThen (runAlone s.nextInstr s.fetch) fun t => .next t.rest

/-- `n` steps of the one-at-a-time interpretation. -/
def seqRun : Nat → State → Result
  | 0, s => .next s
  | n + 1, s => andThen (seqStep s) (seqRun n)

end Sys2Proof.Machine
end

