-- ==== Sys2Proof/Safety.lean ====
section
/-! DEFINITION. What a sound state and a sound run are, in the terms the statements use: the invariants of
40_pipeline_engine.md section 7 and of 10_state.md, as predicates of a state between two cycles. The spec marks R100 to R106
as its own inferences from the rules; here they are stated to be proved, not assumed. -/

namespace Sys2Proof.Machine

/-! ## What is in flight -/

/-- The instruction in each latch; meaningful while the latch is occupied (R20). -/
def State.idInstr (s : State) : Instr := decode s.idl.ir
def State.exInstr (s : State) : Instr := decode s.exl.ir
def State.memInstr (s : State) : Instr := decode s.meml.ir
def State.wbInstr (s : State) : Instr := decode s.wbl.ir

/-- A JMP or BEQZ waits in `EXL`, or in `MEML`: it has issued and is not resolved. -/
abbrev State.ctrlInEx (s : State) : Prop := s.exOccupied = true ∧ isControl s.exInstr = true
abbrev State.ctrlInMem (s : State) : Prop := s.memOccupied = true ∧ isControl s.memInstr = true

/-- A HALT waits in `EXL`, `MEML` or `WBL`: it has issued and has not retired. -/
abbrev State.haltInEx (s : State) : Prop := s.exOccupied = true ∧ s.exInstr = .halt
abbrev State.haltInMem (s : State) : Prop := s.memOccupied = true ∧ s.memInstr = .halt
abbrev State.haltInWb (s : State) : Prop := s.wbOccupied = true ∧ s.wbInstr = .halt

/-- An issued instruction that has not retired will write register `r`. -/
abbrev State.writesInFlight (s : State) (r : RegIdx) : Prop :=
  (s.exOccupied = true ∧ dst s.exInstr = some r) ∨ (s.memOccupied = true ∧ dst s.memInstr = some r) ∨
    (s.wbOccupied = true ∧ dst s.wbInstr = some r)

/-- No instruction is in any latch. -/
abbrev State.drained (s : State) : Prop :=
  s.idOccupied = false ∧ s.exOccupied = false ∧ s.memOccupied = false ∧ s.wbOccupied = false

/-! ## The pipeline invariant -/

/-- What holds between any two cycles of a run: the within-cycle signals are at rest (R23), the control stall is held exactly
while a control instruction is unresolved and nothing younger is in the pipeline (R102, R103), a HALT is the youngest
instruction in the pipeline (R106), and a busy bit is set only for a write in flight (R12, R106). -/
structure PipelineInv (s : State) : Prop where
  resting : s.stage = .wb ∧ s.flushed = false
  memWbNotStalled : s.memStalled = false ∧ s.wbStalled = false
  exStalled : s.exStalled = true ↔ s.ctrlInMem
  idStalled : s.idStalled = true ↔ (s.ctrlInEx ∨ s.ctrlInMem)
  stalledIdEmpty : s.idStalled = true → s.idOccupied = false
  ctrlInMemAlone : s.ctrlInMem → s.exOccupied = false
  pcPastId : s.idOccupied = true → s.pc = s.idl.pc + 2
  pcPastCtrlEx : s.ctrlInEx → s.pc = s.exl.pc + 2
  pcPastCtrlMem : s.ctrlInMem → s.pc = s.meml.pc + 2
  haltStopsFetch : s.haltSeen = true ↔ s.ifOccupied = false
  haltSeen : s.haltSeen = true ↔ (s.haltInEx ∨ s.haltInMem ∨ s.haltInWb ∨ s.halted = true)
  haltSeenIdEmpty : s.haltSeen = true → s.idOccupied = false
  haltYoungestMem : s.haltInMem → s.exOccupied = false
  haltYoungestWb : s.haltInWb → s.exOccupied = false ∧ s.memOccupied = false
  pcPastHaltEx : s.haltInEx → s.pc = s.exl.pc + 2
  pcPastHaltMem : s.haltInMem → s.pc = s.meml.pc + 2
  pcPastHaltWb : s.haltInWb → s.pc = s.wbl.pc + 2
  haltedDrained : s.halted = true → s.drained
  busyInFlight : ∀ r, s.isBusy r = true → s.writesInFlight r

/-! ## Other invariants -/

/-- Both stores are in their canonical form. -/
abbrev MemoryInv (s : State) : Prop := Memory.wf s.imem = true ∧ Memory.wf s.dmem = true

/-- "`PC` is always even" (R14), and so is every target that waits in `MEML`. -/
abbrev EvenPcInv (s : State) : Prop :=
  s.pc.getLsbD 0 = false ∧ (s.ctrlInMem → s.meml.alu.getLsbD 0 = false)

/-- Every word in flight is the word of the Instruction Store at the address it was fetched from (R20, R54). -/
abbrev FetchedInv (s : State) : Prop :=
  (s.idOccupied = true → s.idl.ir = s.fetchWord s.idl.pc) ∧ (s.exOccupied = true → s.exl.ir = s.fetchWord s.exl.pc) ∧
    (s.memOccupied = true → s.meml.ir = s.fetchWord s.meml.pc) ∧ (s.wbOccupied = true → s.wbl.ir = s.fetchWord s.wbl.pc)

/-! ## The counters between two cycles -/

/-- How many of the issued instructions that have not retired satisfy `p`. -/
def State.inFlight (s : State) (p : Instr → Bool) : Nat :=
  (s.exOccupied && p s.exInstr).toNat + (s.memOccupied && p s.memInstr).toNat + (s.wbOccupied && p s.wbInstr).toNat

/-- An instruction that can wait for an operand and is counted at retire: every one but HALT and opcodes 12, 13, 14 (R89, R99). -/
def canWait (i : Instr) : Bool := (instrClass i).isSome && instrClass i != some .halt

/-- For how many cycles a reader of `r` still waits: until the oldest write of `r` in flight retires, and WB precedes ID
(R12, R13, R100). -/
def State.waitFor (s : State) (r : RegIdx) : Nat :=
  if s.isBusy r = false then 0
  else if s.wbOccupied = true ∧ dst s.wbInstr = some r then 0
  else if s.memOccupied = true ∧ dst s.memInstr = some r then 1
  else 2

/-- For how many cycles the instruction in `IDL` still waits (R105). -/
def State.waitLeft (s : State) : Nat :=
  if s.idOccupied = true then (srcs s.idInstr).foldr (fun r m => max (s.waitFor r) m) 0 else 0

/-- The relations of R179 as an invariant of one state: what is still in flight is counted beside the counters. -/
structure CounterInv (s : State) : Prop where
  nHalt : s.stats.nHalt = s.halted.toNat
  ctrlStalls : s.stats.ctrlStalls = 2 * (s.stats.nCtrl + s.inFlight isControl)
  dataStalls : s.stats.dataStalls + s.waitLeft ≤
    2 * (s.stats.nTotal - s.stats.nHalt + s.inFlight canWait + (s.idOccupied && canWait s.idInstr).toNat)
  retired : s.stats.nTotal = 0 ∨ s.stats.nTotal + 4 ≤ s.stats.cycles
  inWb : s.wbOccupied = true → s.stats.nTotal + 4 ≤ s.stats.cycles
  inMem : s.memOccupied = true → s.stats.nTotal + s.wbOccupied.toNat + 3 ≤ s.stats.cycles
  inEx : s.exOccupied = true → s.stats.nTotal + s.wbOccupied.toNat + s.memOccupied.toNat + 2 ≤ s.stats.cycles
  inPipe : s.stats.nTotal + s.wbOccupied.toNat + s.memOccupied.toNat + s.exOccupied.toNat + s.idOccupied.toNat ≤
    s.stats.cycles

/-! ## Runs -/

/-- The state after `n` cycles from the launch state of an image (R192). -/
abbrev ReachedFrom (cfg : Config) (img : LaunchImage) (n : Nat) (t : State) : Prop :=
  ∃ s, State.launch cfg img = some s ∧ Host.Core.run Sys2Proof.core n s = .next t

/-- A run that ended: its last state is the terminal one (R84). -/
abbrev EndsIn (s t : State) : Prop := ∃ n, Host.Core.run Sys2Proof.core n s = .next t ∧ t.halted = true

/-- How many of the first `n` cycles from `s` begin in a state with `p`. -/
def tally (p : State → Bool) : Nat → State → Nat
  | 0, _ => 0
  | n + 1, s =>
    match step s with
    | .next t => (p s).toNat + tally p n t
    | _ => 0

/-- In the cycle that begins in `s` a word retires, of whatever opcode (R98). -/
def State.retires (s : State) : Bool := s.wbOccupied && !s.wbStalled

/-- In the cycle that begins in `s` a JMP or BEQZ is resolved: by a match (R96), or by a flush (R97). -/
def State.branchMatches (s : State) : Bool := decide s.ctrlInMem && s.meml.alu == s.pc
def State.branchFlushes (s : State) : Bool := decide s.ctrlInMem && s.meml.alu != s.pc

/-- The condition of R206 on the words a one-at-a-time run executes: a word with the same destination as the word before it,
or as the word before that, has that register among its sources. -/
abbrev NoOverlappingWriters (s : State) : Prop :=
  ∀ (k d : Nat) (t u : State) (r : RegIdx), d = 1 ∨ d = 2 → seqRun k s = .next t → seqRun (k + d) s = .next u →
    t.halted = false → u.halted = false → dst t.nextInstr = some r → dst u.nextInstr = some r → r ∈ srcs u.nextInstr

end Sys2Proof.Machine
end

