-- ==== Sys2Proof/Certificates/Slice0/Obligations.lean ====
section
/-! DEFINITION. The statements for the provers. Where a statement formalises a rule's pseudo-code it is written over the bits of
the word, as plain division of the word as a number, and over plain arithmetic, not over the model's decoder and operations. -/

namespace Sys2Proof.Claims

open Sys2Proof Sys2Proof.Machine

/-! ## A word's fields as numbers (R62), and its columns in R69, R89, R91 -/

def opN (ir : Word) : Nat := ir.toNat / 4096
def r1 (ir : Word) : RegIdx := Fin.ofNat 16 (ir.toNat / 256)
def r2 (ir : Word) : RegIdx := Fin.ofNat 16 (ir.toNat / 16)
def r3 (ir : Word) : RegIdx := Fin.ofNat 16 ir.toNat

/-- Column "Registers whose busy bit is tested" of R89. -/
def tested (ir : Word) : List RegIdx :=
  match opN ir with
  | 0 | 1 | 2 | 4 | 5 | 7 => [r2 ir, r3 ir]
  | 3 => [r1 ir]
  | 6 | 8 => [r2 ir]
  | 9 => [r1 ir, r2 ir]
  | 11 => [r1 ir]
  | _ => []

/-- Column "Destination marked busy" of R91. -/
def marked (ir : Word) : Option RegIdx := if opN ir ≤ 8 then some (r1 ir) else none

/-- Column `a` of R91. -/
def operandA (ir : Word) (s : State) : Byte :=
  match opN ir with
  | 0 | 1 | 2 | 4 | 5 | 7 => s.x (r2 ir)
  | 3 => s.x (r1 ir)
  | 6 | 8 | 9 => s.x (r2 ir)
  | 11 => s.x (r1 ir)
  | _ => 0

/-- Column `b` of R91. -/
def operandB (ir : Word) (s : State) : Byte :=
  match opN ir with
  | 0 | 1 | 2 | 4 | 5 | 7 => s.x (r3 ir)
  | 9 => s.x (r1 ir)
  | _ => 0

/-- Column "Class" of R69. -/
def classN (ir : Word) : Option InstrClass :=
  match opN ir with
  | 0 | 1 | 2 | 3 => some .arith
  | 4 | 5 | 6 | 7 => some .logic
  | 8 | 9 => some .data
  | 10 | 11 => some .ctrl
  | 15 => some .halt
  | _ => none

/-- `off` of R64 as a number below 256. -/
def offN (cfg : Config) (imm4 : Nat) : Nat := if cfg.imm4Signed = true ∧ 8 ≤ imm4 then imm4 + 240 else imm4

/-- `alu` of R93, by opcode, in arithmetic modulo 256. -/
def aluN (s : State) : Byte :=
  let ir := s.exl.ir
  let a := s.exl.a.toNat
  let b := s.exl.b.toNat
  match opN ir with
  | 0 => BitVec.ofNat 8 (a + b)
  | 1 => BitVec.ofNat 8 (a + 256 - b)
  | 2 => BitVec.ofNat 8 (a * b)
  | 3 => BitVec.ofNat 8 (a + 1)
  | 4 => s.exl.a &&& s.exl.b
  | 5 => s.exl.a ||| s.exl.b
  | 6 => BitVec.ofNat 8 (255 - a)
  | 7 => s.exl.a ^^^ s.exl.b
  | 8 | 9 => BitVec.ofNat 8 (a + offN s.cfg (ir.toNat % 16))
  | 10 => BitVec.ofNat 8 (s.pc.toNat + 2 * (ir.toNat / 16 % 256))
  | 11 => if a = 0 then BitVec.ofNat 8 (s.pc.toNat + 2 * (ir.toNat % 256)) else s.pc
  | _ => 0

/-- `cond` of R93. -/
def condN (s : State) : Bool :=
  match opN s.exl.ir with
  | 10 => true
  | 11 => decide (s.exl.a.toNat = 0)
  | _ => false

/-! ## Counters -/

/-- The counter of a class (R99). -/
def count (t : Stats) : InstrClass → Nat
  | .arith => t.nArith
  | .logic => t.nLogic
  | .data => t.nData
  | .ctrl => t.nCtrl
  | .halt => t.nHalt

/-- The statistics after one more instruction of a class, or of none, retired (R99). -/
def counted (cfg : Config) (t : Stats) : Option InstrClass → Stats
  | some .arith => { t with nArith := countUp cfg t.nArith 1 }
  | some .logic => { t with nLogic := countUp cfg t.nLogic 1 }
  | some .data => { t with nData := countUp cfg t.nData 1 }
  | some .ctrl => { t with nCtrl := countUp cfg t.nCtrl 1 }
  | some .halt => { t with nHalt := countUp cfg t.nHalt 1 }
  | none => t

/-- The state without what carries no meaning: the record of the stage function evaluated, which is the model's own (log
entry 2), and the content of a latch that holds no instruction, which is "meaningful only while the latch's occupied flag is 1"
(R20, U4; log entry 3). -/
def meaningful (t : State) : State :=
  { t with
    stage := .wb
    idl := if t.idOccupied = true then t.idl else { ir := 0, pc := 0 }
    exl := if t.exOccupied = true then t.exl else { ir := 0, pc := 0, a := 0, b := 0 }
    meml := if t.memOccupied = true then t.meml else { ir := 0, pc := 0, alu := 0, cond := false }
    wbl := if t.wbOccupied = true then t.wbl else { ir := 0, pc := 0, val := 0 } }

/-- What is meaningful in a stage function's answer. -/
def seen (r : Result) : Result := andThen r fun t => .next (meaningful t)

/-! ## What an instruction passing alone leaves (R8, R120) -/

/-- `i` passes through ID, EX, MEM and WB alone: each of the four stage actions answers a next state, and the last state is `u`
in everything that has a meaning. -/
def Leaves (i : Instr) (s u : State) : Prop := ∃ t, Passes i s t ∧ meaningful t = meaningful u

/-- No instruction left in any latch; nothing else differs from `s`. -/
def drainedOf (s : State) : State :=
  { s with idOccupied := false, exOccupied := false, memOccupied := false, wbOccupied := false }

/-- After an instruction that writes `val` to `d`: the register is written unless it is register 0, its busy bit is clear, its
class is counted. -/
def afterResult (s : State) (d : RegIdx) (val : Byte) (c : InstrClass) : State :=
  { drainedOf s with
    regs := if d = 0 then s.regs else s.regs.set d val
    busy := s.busy.set d false
    stats := counted s.cfg s.stats (some c) }

/-- After a control instruction with the resolved target `target`: a match leaves `PC`, a difference sets it and flushes
(R96, R97); in both, 2 control stalls are charged, the class is counted, and the two stall flags are released. -/
def afterControl (s : State) (target : Byte) : State :=
  let stats := counted s.cfg { s.stats with ctrlStalls := countUp s.cfg s.stats.ctrlStalls 2 } (some .ctrl)
  if target = s.pc then
    { drainedOf s with idStalled := false, exStalled := false, stats := stats }
  else
    { drainedOf s with
      idStalled := false, exStalled := false, memStalled := false, wbStalled := false
      pc := target, flushed := true, stats := stats }

end Sys2Proof.Claims

open Sys2Proof Sys2Proof.Machine Sys2Proof.Claims

/-! ## Decoding and encoding -/

/-- One word of every row of the opcode table, written from R69 and R62, decodes to the instruction it stands for; a lone byte
is rejected by name. -/
def Obligations.SampleWordsDecode : Prop :=
  decode 0x0312#16 = .add 3 1 2 ∧ decode 0x1312#16 = .sub 3 1 2 ∧ decode 0x2423#16 = .mul 4 2 3 ∧
  decode 0x35FF#16 = .inc 5 ∧ decode 0x4312#16 = .and 3 1 2 ∧ decode 0x5312#16 = .or 3 1 2 ∧
  decode 0x621F#16 = .not 2 1 ∧ decode 0x7312#16 = .xor 3 1 2 ∧ decode 0x814F#16 = .load 1 4 15 ∧
  decode 0x9231#16 = .store 2 3 1 ∧ decode 0xAFE5#16 = .jmp 0xFE ∧ decode 0xB17D#16 = .beqz 1 0x7D ∧
  decode 0xC123#16 = .undef12 ∧ decode 0xDFFF#16 = .undef13 ∧ decode 0xE000#16 = .undef14 ∧ decode 0xFABC#16 = .halt ∧
  (∀ cfg b, decodeBytes cfg [b] = .error .truncated)

/-- R77: the decode function by opcode nibble and fields, with its derived attributes `srcs`, `dst` and `class`. -/
def Obligations.DecodeFollowsTheNibbles : Prop :=
  ∀ ir : Word,
    decode ir =
      (match opN ir with
      | 0 => .add (r1 ir) (r2 ir) (r3 ir)
      | 1 => .sub (r1 ir) (r2 ir) (r3 ir)
      | 2 => .mul (r1 ir) (r2 ir) (r3 ir)
      | 3 => .inc (r1 ir)
      | 4 => .and (r1 ir) (r2 ir) (r3 ir)
      | 5 => .or (r1 ir) (r2 ir) (r3 ir)
      | 6 => .not (r1 ir) (r2 ir)
      | 7 => .xor (r1 ir) (r2 ir) (r3 ir)
      | 8 => .load (r1 ir) (r2 ir) (BitVec.ofNat 4 ir.toNat)
      | 9 => .store (r1 ir) (r2 ir) (BitVec.ofNat 4 ir.toNat)
      | 10 => .jmp (BitVec.ofNat 8 (ir.toNat / 16))
      | 11 => .beqz (r1 ir) (BitVec.ofNat 8 ir.toNat)
      | 12 => .undef12
      | 13 => .undef13
      | 14 => .undef14
      | _ => .halt) ∧
    srcs (decode ir) = tested ir ∧ dst (decode ir) = marked ir ∧ instrClass (decode ir) = classN ir

/-- Decode and encode agree in both directions and in both byte orders: the bytes of an instruction decode to it and leave what
follows; re-encoding a decoded word gives the word with its ignored bits clear, which is a canonical word. -/
def Obligations.DecodeAndEncodeAgree : Prop :=
  (∀ (cfg : Config) (i : Instr) (rest : List Byte),
    decode (encode i) = i ∧ decodeBytes cfg (encodeBytes cfg i ++ rest) = .ok (i, rest)) ∧
  (∀ ir : Word, encode (decode ir) = ir &&& fieldMask ir ∧ (encode (decode ir)).canonical = true)

/-- R68: two words with the same opcode that differ in ignored bits only are the same instruction. -/
def Obligations.IgnoredBitsTakeNoPart : Prop :=
  ∀ ir ir' : Word, ir.op = ir'.op → ir &&& fieldMask ir = ir' &&& fieldMask ir' → decode ir = decode ir'

/-! ## Launch and host -/

/-- R29: the launch state of any initial images in any configuration, row by row (the latch fields are unspecified). -/
def Obligations.LaunchStateFollowsTheTable : Prop :=
  ∀ (cfg : Config) (img : LaunchImage), img.wellFormed = true →
    ∃ s, State.launch cfg img = some s ∧
      (∀ i : RegIdx, s.x i = img.regs.getD i.val 0 ∧ s.isBusy i = false) ∧
      s.pc = 0 ∧
      (∀ a : Byte, s.imemRead a = img.imem.getD a.toNat 0 ∧ s.memRead a = img.dmem.getD a.toNat 0) ∧
      s.ifOccupied = true ∧
      s.idOccupied = false ∧ s.exOccupied = false ∧ s.memOccupied = false ∧ s.wbOccupied = false ∧
      s.idStalled = false ∧ s.exStalled = false ∧ s.memStalled = false ∧ s.wbStalled = false ∧
      s.haltSeen = false ∧ s.halted = false ∧
      s.stats.cycles = 0 ∧ s.stats.nArith = 0 ∧ s.stats.nLogic = 0 ∧ s.stats.nData = 0 ∧ s.stats.nCtrl = 0 ∧
      s.stats.nHalt = 0 ∧ s.stats.dataStalls = 0 ∧ s.stats.ctrlStalls = 0 ∧
      s.cfg = cfg

/-- R196: after the halt the host reads all 256 bytes of the Data Store in address order, the registers and the counters. That a
running machine shows it nothing (R195) and that surplus tokens launch nothing (D28, U14) are written as the model's choice, log
entry 17 (DESIGN CHOICE). -/
def Obligations.HostReadsAfterTheHaltOnly : Prop :=
  (∀ s : State, s.halted = true →
    ∃ v, s.hostView = some v ∧ v.dmem.length = 256 ∧ (∀ a : Byte, v.dmem[a.toNat]? = some (s.memRead a)) ∧
      v.regs = s.regs ∧ v.stats = s.stats) ∧
  (∀ s : State, s.halted = false → s.hostView = none) ∧
  (∀ (cfg : Config) (img : LaunchImage), img.wellFormed = false → State.launch cfg img = none)

/-! ## The engine: what a step is -/

/-- A step runs the decoded instructions: it evaluates WB, MEM, EX, ID, IF in this order on the state the one before left, and
counts a cycle; a stage that advances is exactly `exec` of the instruction decoded from its latch; and after `withFetchWord`
(log entry 11, DESIGN CHOICE), over a canonical Instruction Store, the very next step runs the given word in ID, with nothing else
in flight. -/
def Obligations.StepRunsTheDecodedInstructions : Prop :=
  (∀ s : State, s.halted = false →
    ∃ w m e d, wbStage { s with flushed := false, stage := .wb } = .next w ∧ memStage w = .next m ∧ exStage m = .next e ∧
      idStage e = .next d ∧
      step s = .next { ifStage d with
        stats := { (ifStage d).stats with cycles := countUp (ifStage d).cfg (ifStage d).stats.cycles 1 }
        flushed := false, stage := .wb }) ∧
  (∀ s : State, s.wbOccupied = true → s.wbStalled = false → wbStage s = exec (decode s.wbl.ir) { s with stage := .wb }) ∧
  (∀ s : State, s.memOccupied = true → s.memStalled = false → s.wbOccupied = false → s.wbStalled = false →
    memStage s = exec (decode s.meml.ir) { s with stage := .mem }) ∧
  (∀ s : State, s.exOccupied = true → s.exStalled = false → s.memOccupied = false → s.memStalled = false →
    exStage s = exec (decode s.exl.ir) { s with stage := .ex }) ∧
  (∀ s : State, s.idOccupied = true → s.idStalled = false → s.haltSeen = false → s.exOccupied = false →
    s.exStalled = false → idStage s = exec (decode s.idl.ir) { s with stage := .id }) ∧
  (∀ (s : State) (w : Nat), Memory.wf s.imem = true → w < 65536 →
    ∃ d, exec (decode (BitVec.ofNat 16 w)) { s.withFetchWord 16 w with flushed := false, stage := .id } = .next d ∧
      step (s.withFetchWord 16 w) = .next (ifStage d).countCycle.rest ∧
      (s.withFetchWord 16 w).idl = { ir := BitVec.ofNat 16 w, pc := s.pc })

/-- R170: the machine has a next state in every state that is not halted. R84: the halted state has none; that this is the fault
`terminal` of `step` is log entry 4 (DEDUCED). -/
def Obligations.OnlyTheHaltedStateHasNoSuccessor : Prop :=
  ∀ s : State, (s.halted = false → ∃ t, step s = .next t) ∧ (s.halted = true → step s = .fault .terminal)

/-- R87: the IF stage function, on every state. -/
def Obligations.FetchStageFollowsItsRule : Prop :=
  ∀ s : State, ifStage s =
    if s.ifOccupied = false then s
    else if s.flushed = true then s
    else if s.idOccupied = true ∨ s.idStalled = true then s
    else
      { s with
        idl := { ir := if s.cfg.ifetchBigEndian = true
            then BitVec.ofNat 16 (256 * (s.imemRead s.pc).toNat + (s.imemRead (s.pc + 1)).toNat)
            else BitVec.ofNat 16 (256 * (s.imemRead (s.pc + 1)).toNat + (s.imemRead s.pc).toNat), pc := s.pc }
        idOccupied := true
        pc := BitVec.ofNat 8 (s.pc.toNat + 2) }

/-- R88 to R92: the ID stage function, on every state and every word, in everything that has a meaning (R20). -/
def Obligations.DecodeStageFollowsItsRules : Prop :=
  ∀ s : State, seen (idStage s) = seen (
    if s.idOccupied = false ∨ s.idStalled = true ∨ s.haltSeen = true then .next s
    else if s.exOccupied = true ∨ s.exStalled = true then .next s
    else if ∃ r ∈ tested s.idl.ir, s.isBusy r = true then
      .next { s with stats := { s.stats with dataStalls := countUp s.cfg s.stats.dataStalls 1 } }
    else
      .next { s with
        busy := match marked s.idl.ir with
          | some d => s.busy.set d true
          | none => s.busy
        stats := if opN s.idl.ir = 10 ∨ opN s.idl.ir = 11
          then { s.stats with ctrlStalls := countUp s.cfg s.stats.ctrlStalls 2 } else s.stats
        idStalled := if opN s.idl.ir = 10 ∨ opN s.idl.ir = 11 then true else s.idStalled
        haltSeen := if opN s.idl.ir = 15 then true else s.haltSeen
        ifOccupied := if opN s.idl.ir = 15 then false else s.ifOccupied
        idOccupied := false
        exl := { ir := s.idl.ir, pc := s.idl.pc, a := operandA s.idl.ir s, b := operandB s.idl.ir s }
        exOccupied := true })

/-- R93, R94: the EX stage function, on every state and every word, in everything that has a meaning (R20). -/
def Obligations.ExecuteStageFollowsItsRules : Prop :=
  ∀ s : State, seen (exStage s) = seen (
    if s.exOccupied = false ∨ s.exStalled = true then .next s
    else if s.memOccupied = true ∨ s.memStalled = true then .next s
    else
      .next { s with
        exStalled := if opN s.exl.ir = 10 ∨ opN s.exl.ir = 11 then true else s.exStalled
        exOccupied := false
        meml := { ir := s.exl.ir, pc := s.exl.pc, alu := aluN s, cond := condN s }
        memOccupied := true })

/-- R95, R96, R97: the MEM stage function, on every state and every word: a LOAD reads, a STORE writes the value register as it
stands now, a JMP or BEQZ compares its target with the live `PC` and releases the stall flags or flushes, and then the
instruction is deposited into `WBL`. -/
def Obligations.MemoryStageFollowsItsRules : Prop :=
  ∀ s : State, seen (memStage s) = seen (
    if s.memOccupied = false ∨ s.memStalled = true then .next s
    else if s.wbOccupied = true ∨ s.wbStalled = true then .next s
    else
      let deposit (val : Byte) (u : State) : State :=
        { u with wbl := { ir := s.meml.ir, pc := s.meml.pc, val := val }, wbOccupied := true }
      .next
        (if opN s.meml.ir = 8 then deposit (s.memRead s.meml.alu) { s with memOccupied := false }
        else if opN s.meml.ir = 9 then
          deposit s.meml.alu { s with
            memOccupied := false, dmem := Memory.write s.dmem s.meml.alu.toNat (s.x (r1 s.meml.ir)) }
        else if opN s.meml.ir = 10 ∨ opN s.meml.ir = 11 then
          if s.meml.alu = s.pc then
            deposit s.meml.alu { s with memOccupied := false, idStalled := false, exStalled := false }
          else
            deposit s.meml.alu { s with
              idOccupied := false, exOccupied := false, memOccupied := false
              idStalled := false, exStalled := false, memStalled := false, wbStalled := false
              pc := s.meml.alu, flushed := true }
        else deposit s.meml.alu { s with memOccupied := false }))

/-- R98, R99: the WB stage function, on every state and every word. -/
def Obligations.WritebackStageFollowsItsRules : Prop :=
  ∀ s : State, seen (wbStage s) = seen (
    if s.wbOccupied = false ∨ s.wbStalled = true then .next s
    else
      .next { s with
        wbOccupied := false
        regs := if opN s.wbl.ir ≤ 8 ∧ r1 s.wbl.ir ≠ 0 then s.regs.set (r1 s.wbl.ir) s.wbl.val else s.regs
        busy := if opN s.wbl.ir ≤ 8 then s.busy.set (r1 s.wbl.ir) false else s.busy
        halted := if opN s.wbl.ir = 15 then true else s.halted
        stats := counted s.cfg s.stats (classN s.wbl.ir) })

/-! ## Each instruction: where it completes, its result, and that nothing else changes

`Leaves i s u` says that the four stage actions `exec i` answer a next state one after the other, and that the last one is `u`.
`u` is written as a whole state, so what it does not name is unchanged. The hypotheses are that the registers the instruction
reads are not busy. -/

/-- ADD, SUB, MUL, INC passing alone (R121 to R124, R129). -/
def Obligations.ArithmeticInstructionsComplete : Prop :=
  ∀ (s : State) (d a b : RegIdx), s.isBusy a = false → s.isBusy b = false →
    Leaves (.add d a b) s (afterResult s d (BitVec.ofNat 8 ((s.x a).toNat + (s.x b).toNat)) .arith) ∧
    Leaves (.sub d a b) s (afterResult s d (BitVec.ofNat 8 ((s.x a).toNat + 256 - (s.x b).toNat)) .arith) ∧
    Leaves (.mul d a b) s (afterResult s d (BitVec.ofNat 8 ((s.x a).toNat * (s.x b).toNat)) .arith) ∧
    Leaves (.inc a) s (afterResult s a (BitVec.ofNat 8 ((s.x a).toNat + 1)) .arith)

/-- AND, OR, NOT, XOR passing alone (R125 to R128). -/
def Obligations.LogicalInstructionsComplete : Prop :=
  ∀ (s : State) (d a b : RegIdx), s.isBusy a = false → s.isBusy b = false →
    Leaves (.and d a b) s (afterResult s d (s.x a &&& s.x b) .logic) ∧
    Leaves (.or d a b) s (afterResult s d (s.x a ||| s.x b) .logic) ∧
    Leaves (.not d a) s (afterResult s d (BitVec.ofNat 8 (255 - (s.x a).toNat)) .logic) ∧
    Leaves (.xor d a b) s (afterResult s d (s.x a ^^^ s.x b) .logic)

/-- LOAD passing alone (R141): the byte at the effective address, and no byte of either store changed. -/
def Obligations.LoadCompletes : Prop :=
  ∀ (s : State) (d b : RegIdx) (imm4 : BitVec 4), s.isBusy b = false →
    Leaves (.load d b imm4) s (afterResult s d (s.memRead (effectiveAddress s.cfg (s.x b) imm4)) .data)

/-- STORE passing alone (R142): the value register's byte at the effective address, every other address reads as before, and
nothing else but the data counter changes. -/
def Obligations.StoreCompletes : Prop :=
  ∀ (s : State) (v b : RegIdx) (imm4 : BitVec 4), MemoryInv s → s.isBusy v = false → s.isBusy b = false →
    let ea := effectiveAddress s.cfg (s.x b) imm4
    ∃ u, Leaves (.store v b imm4) s u ∧ u.memRead ea = s.x v ∧ (∀ a, a ≠ ea → u.memRead a = s.memRead a) ∧
      u = { drainedOf s with dmem := u.dmem, stats := counted s.cfg s.stats (some .data) }

/-- JMP and BEQZ passing alone (R151, R152), with `PC` past the instruction. -/
def Obligations.ControlInstructionsComplete : Prop :=
  ∀ (s : State) (c : RegIdx) (imm8 : BitVec 8),
    let target := BitVec.ofNat 8 (s.pc.toNat + 2 * imm8.toNat)
    Leaves (.jmp imm8) s (afterControl s target) ∧
    (s.isBusy c = false → Leaves (.beqz c imm8) s (afterControl s (if s.x c = 0 then target else s.pc)))

/-- HALT passing alone (R160): fetch and decode are disabled, `halted` is set, HALT is counted; opcodes 12, 13, 14 (R161):
nothing changes but the slot they leave, no counter either. -/
def Obligations.HaltAndUndefinedOpcodesComplete : Prop :=
  ∀ s : State,
    Leaves .halt s { drainedOf s with
      haltSeen := true, ifOccupied := false, halted := true, stats := counted s.cfg s.stats (some .halt) } ∧
    Leaves .undef12 s (drainedOf s) ∧ Leaves .undef13 s (drainedOf s) ∧ Leaves .undef14 s (drainedOf s)

/-- R90: in ID, an instruction one of whose source registers is busy waits: one data stall is counted and nothing else happens. -/
def Obligations.BusySourceHoldsTheInstruction : Prop :=
  ∀ (i : Instr) (s : State) (r : RegIdx), s.stage = .id → r ∈ srcs i → s.isBusy r = true →
    exec i s = .next { s with stats := { s.stats with dataStalls := countUp s.cfg s.stats.dataStalls 1 } }

/-- R64, R140: the effective address is the base plus the offset modulo 256, the offset 0 to 15, or −8 to 7 when
`IMM4_SIGNED`. -/
def Obligations.EffectiveAddressAddsTheOffset : Prop :=
  ∀ (cfg : Config) (base : Byte) (imm4 : BitVec 4),
    effectiveAddress cfg base imm4 = BitVec.ofNat 8 (base.toNat + offN cfg imm4.toNat) ∧
    (cfg.imm4Signed = false → (offset cfg imm4).toNat = imm4.toNat) ∧
    (cfg.imm4Signed = true → (offset cfg imm4).toInt = imm4.toInt)

/-- R67, R150: a target is `PC + 2 * imm8` modulo 256; bit 7 of `imm8` has no effect, signed and unsigned readings of `imm8` give
the same target, every address of `PC`'s parity is a target, and it equals `PC` exactly when `imm8` is 0x00 or 0x80 (R153). -/
def Obligations.BranchTargetWrapsModulo256 : Prop :=
  ∀ (pc : Byte) (imm8 : BitVec 8),
    branchTarget pc imm8 = BitVec.ofNat 8 (pc.toNat + 2 * imm8.toNat) ∧
    branchTarget pc imm8 = BitVec.ofInt 8 (pc.toInt + 2 * imm8.toInt) ∧
    branchTarget pc (imm8 ^^^ 0x80#8) = branchTarget pc imm8 ∧
    (∀ t : Byte, t.getLsbD 0 = pc.getLsbD 0 → ∃ k, branchTarget pc k = t) ∧
    (branchTarget pc imm8 = pc ↔ imm8 = 0x00#8 ∨ imm8 = 0x80#8)

/-! ## What a step can change: whole-machine rules -/

/-- R15, R54: no step changes the Instruction Store (nor the configuration): a store is never seen by a fetch. -/
def Obligations.InstructionStoreNeverChanges : Prop :=
  ∀ s t : State, step s = .next t → t.imem = s.imem ∧ t.cfg = s.cfg ∧ ∀ a, t.fetchWord a = s.fetchWord a

/-- R11: a write to register 0 is ignored, a read of it returns its value like any other register's, and it keeps its value in
every run. -/
def Obligations.RegisterZeroKeepsItsValue : Prop :=
  (∀ (s : State) (v : Byte), s.writeReg 0 v = s) ∧
  (∀ (s : State) (i : RegIdx), s.x i = s.regs[i]) ∧
  (∀ (n : Nat) (s t : State), Host.Core.run Sys2Proof.core n s = .next t → t.x 0 = s.x 0)

/-- R10, R98: a step changes at most one register, and only as the retirement of the instruction in `WBL` with that
destination, which is not register 0. -/
def Obligations.OnlyRetirementWritesARegister : Prop :=
  ∀ (s t : State) (r : RegIdx), step s = .next t → t.x r ≠ s.x r →
    r ≠ 0 ∧ s.wbOccupied = true ∧ s.wbStalled = false ∧ dst s.wbInstr = some r ∧ t.x r = s.wbl.val

/-- R13: a busy bit is set only by the issue of an instruction with that destination, and cleared only by the retirement of
one. -/
def Obligations.BusyBitsFollowIssueAndRetire : Prop :=
  ∀ (s t : State) (r : RegIdx), step s = .next t →
    (s.isBusy r = false → t.isBusy r = true →
      s.idOccupied = true ∧ dst s.idInstr = some r ∧ t.exOccupied = true ∧ t.exl.ir = s.idl.ir ∧ t.exl.pc = s.idl.pc) ∧
    (s.isBusy r = true → t.isBusy r = false → s.wbOccupied = true ∧ dst s.wbInstr = some r)

/-- R16, R86: a step changes at most one byte of the Data Store, and only as the MEM action of a STORE, at its address, to what
its value register holds after the step. -/
def Obligations.OnlyAStoreWritesTheDataStore : Prop :=
  ∀ (s t : State) (a : Byte), MemoryInv s → step s = .next t → t.memRead a ≠ s.memRead a →
    s.memOccupied = true ∧ a = s.meml.alu ∧ ∃ v b imm4, s.memInstr = .store v b imm4 ∧ t.memRead a = t.x v

/-- R14: `PC` is written in exactly two places: a fetch advances it by 2, and a flush sets it to the target of the JMP or BEQZ
in MEM. -/
def Obligations.OnlyFetchAndFlushWriteThePc : Prop :=
  ∀ s t : State, step s = .next t →
    t.pc = s.pc ∨
    (t.pc = s.pc + 2 ∧ t.idOccupied = true ∧ t.idl = { ir := s.fetchWord s.pc, pc := s.pc }) ∨
    (s.ctrlInMem ∧ t.pc = s.meml.alu ∧ t.idOccupied = false)

/-- R18, R21, R22: a step keeps disabled fetch disabled and `halt_seen` set; it sets `halted` only when a HALT retires, and
`halt_seen` only when a HALT issues, which disables fetch. That `halted` is never cleared is `OnlyTheHaltedStateHasNoSuccessor`:
no step leaves a state in which it is set. What disables fetch is `DecodeStageFollowsItsRules`. -/
def Obligations.HaltFlagsAreNeverCleared : Prop :=
  ∀ s t : State, step s = .next t →
    (s.ifOccupied = false → t.ifOccupied = false) ∧ (s.haltSeen = true → t.haltSeen = true) ∧
    (t.halted = true → s.haltInWb) ∧
    (s.haltSeen = false → t.haltSeen = true → s.idOccupied = true ∧ s.idInstr = .halt ∧ t.ifOccupied = false)

/-- R24, R85, R90, R92, R99, with unbounded counters: what one step adds to each counter. -/
def Obligations.CountersOnlyCountUp : Prop :=
  ∀ s t : State, s.cfg.ctrWidth = none → step s = .next t →
    t.stats.cycles = s.stats.cycles + 1 ∧
    (∀ c, count t.stats c = count s.stats c +
      if s.wbOccupied = true ∧ s.wbStalled = false ∧ instrClass s.wbInstr = some c then 1 else 0) ∧
    (t.stats.dataStalls = s.stats.dataStalls ∨
      (t.stats.dataStalls = s.stats.dataStalls + 1 ∧ s.idOccupied = true ∧ t.idOccupied = true ∧ t.idl = s.idl ∧
        ∃ r ∈ srcs s.idInstr, s.isBusy r = true)) ∧
    (t.stats.ctrlStalls = s.stats.ctrlStalls ∨
      (t.stats.ctrlStalls = s.stats.ctrlStalls + 2 ∧ s.idOccupied = true ∧ isControl s.idInstr = true ∧ t.ctrlInEx))

/-! ## Hazards -/

/-- R143: the byte a STORE writes is its value register as it stands in its MEM cycle, after that cycle's WB: a write that
retires in the same cycle is seen, and no other byte changes. -/
def Obligations.StoreSeesSameCycleWriteback : Prop :=
  ∀ (s : State) (v b : RegIdx) (imm4 : BitVec 4), MemoryInv s → s.halted = false → s.memOccupied = true →
    s.memStalled = false → s.wbStalled = false → s.memInstr = .store v b imm4 →
    ∃ t, step s = .next t ∧
      t.memRead s.meml.alu =
        (if s.wbOccupied = true ∧ dst s.wbInstr = some v ∧ v ≠ 0 then s.wbl.val else s.x v) ∧
      ∀ a, a ≠ s.meml.alu → t.memRead a = s.memRead a

/-- R100 and R201 (inferences the spec marks as its own): an instruction whose busy sources are all the register that retires in
this cycle issues in this cycle and reads the retiring value, and this even when a younger write of that register is still
in flight (the stale read). -/
def Obligations.ConsumerIssuesInTheRetireCycle : Prop :=
  ∀ (s : State) (r : RegIdx), PipelineInv s → s.idOccupied = true → s.wbOccupied = true → dst s.wbInstr = some r →
    (∀ q ∈ srcs s.idInstr, q = r ∨ s.isBusy q = false) →
    ∃ t, step s = .next t ∧ t.exOccupied = true ∧
      t.exl.ir = s.idl.ir ∧ t.exl.pc = s.idl.pc ∧
      t.exl.a = operandA s.idl.ir (s.writeReg r s.wbl.val) ∧ t.exl.b = operandB s.idl.ir (s.writeReg r s.wbl.val)

/-- R144 (the spec's inference): a LOAD directly behind a STORE to the same address returns the stored byte, with no stall. -/
def Obligations.LoadBehindStoreReadsTheStoredByte : Prop :=
  ∀ (s : State) (v b d b' : RegIdx) (imm4 imm4' : BitVec 4), PipelineInv s → MemoryInv s →
    s.memOccupied = true → s.memInstr = .store v b imm4 → s.exOccupied = true → s.exInstr = .load d b' imm4' →
    effectiveAddress s.cfg s.exl.a imm4' = s.meml.alu →
    ∃ t u, step s = .next t ∧ step t = .next u ∧ u.wbOccupied = true ∧ u.wbl.ir = s.exl.ir ∧ u.wbl.val = t.x v

/-- R101, R103, R106 (the spec's inferences): from a state of the pipeline invariant every instruction in flight moves exactly
one latch on in a step; only the one in `IDL` can wait there; nothing is discarded and nothing overtaken. -/
def Obligations.EveryIssuedInstructionAdvances : Prop :=
  ∀ s t : State, PipelineInv s → step s = .next t →
    t.wbOccupied = s.memOccupied ∧ (s.memOccupied = true → t.wbl.ir = s.meml.ir ∧ t.wbl.pc = s.meml.pc) ∧
    t.memOccupied = s.exOccupied ∧ (s.exOccupied = true → t.meml.ir = s.exl.ir ∧ t.meml.pc = s.exl.pc) ∧
    (s.idOccupied = true →
      (t.exOccupied = true ∧ t.exl.ir = s.idl.ir ∧ t.exl.pc = s.idl.pc) ∨
      (t.exOccupied = false ∧ t.idOccupied = true ∧ t.idl = s.idl ∧ t.pc = s.pc))

/-- R155 (the spec's inference): a JMP or BEQZ that issued in the last cycle is in MEM's latch one cycle later, with `PC` unmoved and
nothing fetched, and resolved two cycles later: on a match the word at `PC` is fetched in that cycle, on a difference `PC` is the
target, nothing is fetched, and no instruction is left but the control instruction itself, in `WBL`. -/
def Obligations.ControlInstructionResolvesInTwoCycles : Prop :=
  ∀ s : State, PipelineInv s → s.ctrlInEx →
    ∃ t u, step s = .next t ∧ step t = .next u ∧
      t.ctrlInMem ∧ t.pc = s.pc ∧ t.idOccupied = false ∧ t.exOccupied = false ∧ t.meml.alu = aluN s ∧
      u.wbOccupied = true ∧ u.wbl.ir = s.exl.ir ∧ u.memOccupied = false ∧ u.exOccupied = false ∧
      u.idStalled = false ∧ u.exStalled = false ∧
      (aluN s = s.pc → u.idOccupied = true ∧ u.idl = { ir := s.fetchWord s.pc, pc := s.pc } ∧ u.pc = s.pc + 2) ∧
      (aluN s ≠ s.pc → u.idOccupied = false ∧ u.pc = aluN s)

/-- R106 (the spec's inference): no instruction takes more than 2 data stalls: it issues within three cycles, having counted one
stall for each cycle it waited. -/
def Obligations.DataStallsLastAtMostTwoCycles : Prop :=
  ∀ s : State, PipelineInv s → s.cfg.ctrWidth = none → s.idOccupied = true →
    ∃ k t u, k ≤ 2 ∧ Host.Core.run Sys2Proof.core k s = .next t ∧ step t = .next u ∧
      t.idOccupied = true ∧ t.idl = s.idl ∧ t.stats.dataStalls = s.stats.dataStalls + k ∧
      u.exOccupied = true ∧ u.exl.ir = s.idl.ir ∧ u.exl.pc = s.idl.pc ∧ u.stats.dataStalls = t.stats.dataStalls

/-- R106 (the spec's inference): in the cycle that sets `halted`, the pipeline is left empty, with all busy bits and stall flags
0, fetch disabled and `PC` two past the HALT. -/
def Obligations.HaltLeavesThePipelineEmpty : Prop :=
  ∀ s t : State, PipelineInv s → step s = .next t → t.halted = true →
    t.drained ∧ t.idStalled = false ∧ t.exStalled = false ∧ t.memStalled = false ∧ t.wbStalled = false ∧
    (∀ r, t.isBusy r = false) ∧ t.ifOccupied = false ∧ t.haltSeen = true ∧ t.pc = s.wbl.pc + 2

/-! ## Invariants -/

/-- The launch state of every image in every configuration meets the pipeline, store, even-PC and fetched-word invariants. The
counter invariant is `LaunchMeetsTheCounterInvariant`. -/
def Obligations.LaunchMeetsTheInvariants : Prop :=
  ∀ (cfg : Config) (img : LaunchImage) (s : State), State.launch cfg img = some s →
    PipelineInv s ∧ MemoryInv s ∧ EvenPcInv s ∧ FetchedInv s

/-- The reset state meets the pipeline, store, even-PC and fetched-word invariants. -/
def Obligations.ResetMeetsTheInvariants : Prop :=
  PipelineInv State.reset ∧ MemoryInv State.reset ∧ EvenPcInv State.reset ∧ FetchedInv State.reset

/-- Every step keeps both stores in their canonical form. -/
def Obligations.StepsKeepTheStoresCanonical : Prop :=
  ∀ s t : State, MemoryInv s → step s = .next t → MemoryInv t

/-- R14 (the spec's inference): every step keeps `PC` even, and the targets that wait to be compared with it. -/
def Obligations.StepsKeepThePcEven : Prop :=
  ∀ s t : State, EvenPcInv s → step s = .next t → EvenPcInv t

/-- R20, R54: every step keeps each word in flight equal to the Instruction Store's word at the address it came from. -/
def Obligations.StepsKeepFetchedWords : Prop :=
  ∀ s t : State, FetchedInv s → step s = .next t → FetchedInv t

/-- R101, R102, R103, R106 (the spec's inferences): every step keeps the pipeline invariant. -/
def Obligations.StepsKeepThePipelineInvariant : Prop :=
  ∀ s t : State, PipelineInv s → step s = .next t → PipelineInv t

/-- The launch state of every image meets the counter invariant. -/
def Obligations.LaunchMeetsTheCounterInvariant : Prop :=
  ∀ (cfg : Config) (img : LaunchImage) (s : State), State.launch cfg img = some s → CounterInv s

/-- R179, R106, R85 (the spec's inferences), as one step: with unbounded counters, from a state of the pipeline invariant every
step keeps the counter invariant, which charges 2 control stalls for each control instruction issued, at most 2 data stalls for
each instruction that can wait, one HALT, and a latency of 4 cycles before the first retirement. -/
def Obligations.StepsKeepTheCounterInvariant : Prop :=
  ∀ s t : State, s.cfg.ctrWidth = none → PipelineInv s → CounterInv s → step s = .next t → CounterInv t

/-- R102's last clause as the spec words it (its inference): while the control stall is held, `EXL` and `MEML` "hold nothing but
that one control instruction", so they are not both occupied. EXPECTED TO FAIL in the cycle-level machine, which is the
normative one (R8): right after a JMP issues, `MEML` can hold the instruction before it (log entry 13). -/
def Obligations.ControlStallEmptiesExecuteAndMemory : Prop :=
  ∀ (cfg : Config) (img : LaunchImage) (n : Nat) (t : State), ReachedFrom cfg img n t → t.idStalled = true →
    ¬ (t.exOccupied = true ∧ t.memOccupied = true)

/-! ## Runs -/

/-- R104 (the spec's inference) and R120 to R161: from a state of the pipeline invariant with an empty pipeline, the instruction
at `PC` runs as it does alone (`runAlone`, log entry 15, DEDUCED): after 4 cycles the Data Store, and after 5 the registers, the
class counters and `halted`, are those of the instruction passing alone, whatever instructions follow it; and the next word is
fetched at the `PC` it leaves alone: in the second cycle behind a plain instruction, in the fourth behind a control instruction
that matched, after the fourth behind one that flushed, never behind a HALT. -/
def Obligations.FiveCyclesRunTheNextInstruction : Prop :=
  ∀ s : State, PipelineInv s → s.drained → s.ifOccupied = true →
    ∃ t₂ t₄ t₅ u, runAlone s.nextInstr s.fetch = .next u ∧
      Host.Core.run Sys2Proof.core 2 s = .next t₂ ∧
      Host.Core.run Sys2Proof.core 4 s = .next t₄ ∧ t₄.dmem = u.dmem ∧
      Host.Core.run Sys2Proof.core 5 s = .next t₅ ∧ t₅.regs = u.regs ∧ t₅.halted = u.halted ∧
      (∀ c, count t₅.stats c = count u.stats c) ∧
      (isControl s.nextInstr = false → s.nextInstr ≠ .halt → t₂.idOccupied = true ∧ t₂.idl.pc = u.pc) ∧
      (isControl s.nextInstr = true → u.pc = s.pc + 2 → t₄.idOccupied = true ∧ t₄.idl.pc = u.pc) ∧
      (isControl s.nextInstr = true → u.pc ≠ s.pc + 2 → t₄.idOccupied = false ∧ t₄.pc = u.pc) ∧
      (s.nextInstr = .halt → t₅.idOccupied = false ∧ t₅.pc = u.pc)

/-- R179 (the spec's inference), with unbounded counters: its relations among the counters at the end of any run that halts,
but for the exact cycle count, which `ExactCycleCountAtTheHalt` states. -/
def Obligations.CounterRelationsAtTheHalt : Prop :=
  ∀ (cfg : Config) (img : LaunchImage) (n : Nat) (t : State), cfg.ctrWidth = none → ReachedFrom cfg img n t →
    t.halted = true →
    t.stats.nHalt = 1 ∧ t.stats.ctrlStalls = 2 * t.stats.nCtrl ∧
    t.stats.dataStalls ≤ 2 * (t.stats.nTotal - 1) ∧ t.stats.nTotal + 4 ≤ t.stats.cycles ∧ t.stats.cycles = n

/-- R179's exact cycle count (the spec's inference), with unbounded counters: the pipeline's fill, one cycle for each word that
retired, opcodes 12 to 14 among them, one for each data stall, 2 for each control instruction that matched and 3 for each that
flushed. -/
def Obligations.ExactCycleCountAtTheHalt : Prop :=
  ∀ (cfg : Config) (img : LaunchImage) (n : Nat) (s t : State), cfg.ctrWidth = none → State.launch cfg img = some s →
    Host.Core.run Sys2Proof.core n s = .next t → t.halted = true →
    t.stats.cycles = 4 + tally State.retires n s + t.stats.dataStalls + 2 * tally State.branchMatches n s +
      3 * tally State.branchFlushes n s

/-- R206 (offered by the spec to be proved), with `seqRun` and the condition as log entry 15 (DEDUCED) writes them: a program in
which no two words with one destination overlap in flight ends, on the cycle-level machine, with the registers, the Data Store
and the class counts of running its words one at a time. -/
def Obligations.PipelineRefinesOneAtATime : Prop :=
  ∀ (s u : State) (n : Nat), PipelineInv s → MemoryInv s → s.drained → s.ifOccupied = true →
    NoOverlappingWriters s → seqRun n s = .next u → u.halted = true →
    ∃ t, EndsIn s t ∧ t.regs = u.regs ∧ t.dmem = u.dmem ∧ t.pc = u.pc ∧ ∀ c, count t.stats c = count u.stats c
end

