-- ==== Sys2Proof/Laws/Decode.lean ====
section
/-! SUPPORT. The fields of a word made of four nibbles, and the two byte orders. -/

namespace Sys2Proof

/-- The bits of four nibbles. -/
theorem getLsbD_nibbles (op a b c : BitVec 4) (k : Nat) :
    (nibbles op a b c).getLsbD k =
      if k < 4 then c.getLsbD k else if k < 8 then b.getLsbD (k - 4) else if k < 12 then a.getLsbD (k - 8)
      else op.getLsbD (k - 12) := by
  simp only [nibbles, BitVec.getLsbD_append, Nat.sub_sub]
  by_cases h4 : k < 4
  · simp [h4]
  · by_cases h8 : k < 8
    · simp [h4, h8, show k - 4 < 4 by omega]
    · by_cases h12 : k < 12
      · simp [h4, h8, h12, show ¬ k - 4 < 4 by omega, show k - 8 < 4 by omega]
      · simp [h4, h8, h12, show ¬ k - 4 < 4 by omega, show ¬ k - 8 < 4 by omega]

@[simp] theorem op_nibbles (op a b c : BitVec 4) : (nibbles op a b c).op = op := by
  apply BitVec.eq_of_getLsbD_eq
  intro i hi
  simp [Word.op, getLsbD_nibbles, hi, show ¬ 12 + i < 4 by omega, show ¬ 12 + i < 8 by omega]

theorem extract_nibble1 (op a b c : BitVec 4) : (nibbles op a b c).extractLsb' 8 4 = a := by
  apply BitVec.eq_of_getLsbD_eq
  intro i hi
  simp [getLsbD_nibbles, hi, show ¬ 8 + i < 4 by omega, show 8 + i < 12 by omega]

theorem extract_nibble2 (op a b c : BitVec 4) : (nibbles op a b c).extractLsb' 4 4 = b := by
  apply BitVec.eq_of_getLsbD_eq
  intro i hi
  simp [getLsbD_nibbles, hi, show 4 + i < 8 by omega]

theorem extract_nibble3 (op a b c : BitVec 4) : (nibbles op a b c).extractLsb' 0 4 = c := by
  apply BitVec.eq_of_getLsbD_eq
  intro i hi
  simp [getLsbD_nibbles, hi]

@[simp] theorem f1_nibbles (op a b c : BitVec 4) : (nibbles op a b c).f1 = a.toFin := by simp [Word.f1, extract_nibble1]
@[simp] theorem f2_nibbles (op a b c : BitVec 4) : (nibbles op a b c).f2 = b.toFin := by simp [Word.f2, extract_nibble2]
@[simp] theorem f3_nibbles (op a b c : BitVec 4) : (nibbles op a b c).f3 = c.toFin := by simp [Word.f3, extract_nibble3]
@[simp] theorem imm4_nibbles (op a b c : BitVec 4) : (nibbles op a b c).imm4 = c := extract_nibble3 op a b c
@[simp] theorem toFin_regBits (r : RegIdx) : (regBits r).toFin = r := rfl

/-- Two bytes laid out in a byte order make the word they came from, in either order. -/
@[simp] theorem wordOfBytes_bytesOfWord (cfg : Config) (ir : Word) :
    wordOfBytes cfg (bytesOfWord cfg ir).1 (bytesOfWord cfg ir).2 = ir := by
  have h : (ir.extractLsb' 8 8 ++ ir.extractLsb' 0 8 : BitVec 16) = ir := by
    apply BitVec.eq_of_getLsbD_eq
    intro i hi
    rw [BitVec.getLsbD_append]
    by_cases h8 : i < 8
    · simp [h8]
    · simp [h8, show i - 8 < 8 by omega, show 8 + (i - 8) = i by omega]
  cases hb : cfg.ifetchBigEndian <;> simp [wordOfBytes, bytesOfWord, hb, h]

/-! ## Canonical words (R68) -/

/-- A word whose format uses every bit is canonical. -/
theorem canonical_full (w : Word) (h : fieldMask w = 0xFFFF#16) : w.canonical = true := by
  have : w &&& 0xFFFF#16 = w := BitVec.and_allOnes
  simp [Word.canonical, h, this]

/-- A word with no bit outside its format's mask is canonical. -/
theorem canonical_masked (w m : Word) (h : fieldMask w = m)
    (hm : ∀ k, k < 16 → w.getLsbD k = true → m.getLsbD k = true) : w.canonical = true := by
  simp only [Word.canonical, h, beq_iff_eq]
  apply BitVec.eq_of_getLsbD_eq
  intro i hi
  rw [BitVec.getLsbD_and]
  cases hw : w.getLsbD i
  · simp
  · simp [hm i hi hw]

end Sys2Proof
end

