-- ==== Sys2Proof/Laws/State.lean ====
section
/-! SUPPORT. What each named update of State.lean's record does to each field: one lemma per field per update, so that no later
proof unfolds a record update. -/

namespace Sys2Proof.Machine

/-! ## atStage -/

section
variable (s : State) (st : Stage)

@[simp] theorem atStage_regs : (s.atStage st).regs = s.regs := rfl
@[simp] theorem atStage_busy : (s.atStage st).busy = s.busy := rfl
@[simp] theorem atStage_pc : (s.atStage st).pc = s.pc := rfl
@[simp] theorem atStage_imem : (s.atStage st).imem = s.imem := rfl
@[simp] theorem atStage_dmem : (s.atStage st).dmem = s.dmem := rfl
@[simp] theorem atStage_ifOccupied : (s.atStage st).ifOccupied = s.ifOccupied := rfl
@[simp] theorem atStage_idOccupied : (s.atStage st).idOccupied = s.idOccupied := rfl
@[simp] theorem atStage_exOccupied : (s.atStage st).exOccupied = s.exOccupied := rfl
@[simp] theorem atStage_memOccupied : (s.atStage st).memOccupied = s.memOccupied := rfl
@[simp] theorem atStage_wbOccupied : (s.atStage st).wbOccupied = s.wbOccupied := rfl
@[simp] theorem atStage_idStalled : (s.atStage st).idStalled = s.idStalled := rfl
@[simp] theorem atStage_exStalled : (s.atStage st).exStalled = s.exStalled := rfl
@[simp] theorem atStage_memStalled : (s.atStage st).memStalled = s.memStalled := rfl
@[simp] theorem atStage_wbStalled : (s.atStage st).wbStalled = s.wbStalled := rfl
@[simp] theorem atStage_idl : (s.atStage st).idl = s.idl := rfl
@[simp] theorem atStage_exl : (s.atStage st).exl = s.exl := rfl
@[simp] theorem atStage_meml : (s.atStage st).meml = s.meml := rfl
@[simp] theorem atStage_wbl : (s.atStage st).wbl = s.wbl := rfl
@[simp] theorem atStage_haltSeen : (s.atStage st).haltSeen = s.haltSeen := rfl
@[simp] theorem atStage_halted : (s.atStage st).halted = s.halted := rfl
@[simp] theorem atStage_stats : (s.atStage st).stats = s.stats := rfl
@[simp] theorem atStage_cfg : (s.atStage st).cfg = s.cfg := rfl
@[simp] theorem atStage_flushed : (s.atStage st).flushed = s.flushed := rfl
@[simp] theorem atStage_stage : (s.atStage st).stage = st := rfl

end

/-! ## setBusy -/

section
variable (s : State) (i : RegIdx) (b : Bool)

@[simp] theorem setBusy_regs : (s.setBusy i b).regs = s.regs := rfl
@[simp] theorem setBusy_busy : (s.setBusy i b).busy = s.busy.set i b := rfl
@[simp] theorem setBusy_pc : (s.setBusy i b).pc = s.pc := rfl
@[simp] theorem setBusy_imem : (s.setBusy i b).imem = s.imem := rfl
@[simp] theorem setBusy_dmem : (s.setBusy i b).dmem = s.dmem := rfl
@[simp] theorem setBusy_ifOccupied : (s.setBusy i b).ifOccupied = s.ifOccupied := rfl
@[simp] theorem setBusy_idOccupied : (s.setBusy i b).idOccupied = s.idOccupied := rfl
@[simp] theorem setBusy_exOccupied : (s.setBusy i b).exOccupied = s.exOccupied := rfl
@[simp] theorem setBusy_memOccupied : (s.setBusy i b).memOccupied = s.memOccupied := rfl
@[simp] theorem setBusy_wbOccupied : (s.setBusy i b).wbOccupied = s.wbOccupied := rfl
@[simp] theorem setBusy_idStalled : (s.setBusy i b).idStalled = s.idStalled := rfl
@[simp] theorem setBusy_exStalled : (s.setBusy i b).exStalled = s.exStalled := rfl
@[simp] theorem setBusy_memStalled : (s.setBusy i b).memStalled = s.memStalled := rfl
@[simp] theorem setBusy_wbStalled : (s.setBusy i b).wbStalled = s.wbStalled := rfl
@[simp] theorem setBusy_idl : (s.setBusy i b).idl = s.idl := rfl
@[simp] theorem setBusy_exl : (s.setBusy i b).exl = s.exl := rfl
@[simp] theorem setBusy_meml : (s.setBusy i b).meml = s.meml := rfl
@[simp] theorem setBusy_wbl : (s.setBusy i b).wbl = s.wbl := rfl
@[simp] theorem setBusy_haltSeen : (s.setBusy i b).haltSeen = s.haltSeen := rfl
@[simp] theorem setBusy_halted : (s.setBusy i b).halted = s.halted := rfl
@[simp] theorem setBusy_stats : (s.setBusy i b).stats = s.stats := rfl
@[simp] theorem setBusy_cfg : (s.setBusy i b).cfg = s.cfg := rfl
@[simp] theorem setBusy_flushed : (s.setBusy i b).flushed = s.flushed := rfl
@[simp] theorem setBusy_stage : (s.setBusy i b).stage = s.stage := rfl

end

/-! ## memWrite -/

section
variable (s : State) (a v : Byte)

@[simp] theorem memWrite_regs : (s.memWrite a v).regs = s.regs := rfl
@[simp] theorem memWrite_busy : (s.memWrite a v).busy = s.busy := rfl
@[simp] theorem memWrite_pc : (s.memWrite a v).pc = s.pc := rfl
@[simp] theorem memWrite_imem : (s.memWrite a v).imem = s.imem := rfl
@[simp] theorem memWrite_dmem : (s.memWrite a v).dmem = Memory.write s.dmem (addrOf a) v := rfl
@[simp] theorem memWrite_ifOccupied : (s.memWrite a v).ifOccupied = s.ifOccupied := rfl
@[simp] theorem memWrite_idOccupied : (s.memWrite a v).idOccupied = s.idOccupied := rfl
@[simp] theorem memWrite_exOccupied : (s.memWrite a v).exOccupied = s.exOccupied := rfl
@[simp] theorem memWrite_memOccupied : (s.memWrite a v).memOccupied = s.memOccupied := rfl
@[simp] theorem memWrite_wbOccupied : (s.memWrite a v).wbOccupied = s.wbOccupied := rfl
@[simp] theorem memWrite_idStalled : (s.memWrite a v).idStalled = s.idStalled := rfl
@[simp] theorem memWrite_exStalled : (s.memWrite a v).exStalled = s.exStalled := rfl
@[simp] theorem memWrite_memStalled : (s.memWrite a v).memStalled = s.memStalled := rfl
@[simp] theorem memWrite_wbStalled : (s.memWrite a v).wbStalled = s.wbStalled := rfl
@[simp] theorem memWrite_idl : (s.memWrite a v).idl = s.idl := rfl
@[simp] theorem memWrite_exl : (s.memWrite a v).exl = s.exl := rfl
@[simp] theorem memWrite_meml : (s.memWrite a v).meml = s.meml := rfl
@[simp] theorem memWrite_wbl : (s.memWrite a v).wbl = s.wbl := rfl
@[simp] theorem memWrite_haltSeen : (s.memWrite a v).haltSeen = s.haltSeen := rfl
@[simp] theorem memWrite_halted : (s.memWrite a v).halted = s.halted := rfl
@[simp] theorem memWrite_stats : (s.memWrite a v).stats = s.stats := rfl
@[simp] theorem memWrite_cfg : (s.memWrite a v).cfg = s.cfg := rfl
@[simp] theorem memWrite_flushed : (s.memWrite a v).flushed = s.flushed := rfl
@[simp] theorem memWrite_stage : (s.memWrite a v).stage = s.stage := rfl

end

/-! ## imemLoad -/

section
variable (s : State) (a v : Byte)

@[simp] theorem imemLoad_regs : (s.imemLoad a v).regs = s.regs := rfl
@[simp] theorem imemLoad_busy : (s.imemLoad a v).busy = s.busy := rfl
@[simp] theorem imemLoad_pc : (s.imemLoad a v).pc = s.pc := rfl
@[simp] theorem imemLoad_imem : (s.imemLoad a v).imem = Memory.write s.imem (addrOf a) v := rfl
@[simp] theorem imemLoad_dmem : (s.imemLoad a v).dmem = s.dmem := rfl
@[simp] theorem imemLoad_ifOccupied : (s.imemLoad a v).ifOccupied = s.ifOccupied := rfl
@[simp] theorem imemLoad_idOccupied : (s.imemLoad a v).idOccupied = s.idOccupied := rfl
@[simp] theorem imemLoad_exOccupied : (s.imemLoad a v).exOccupied = s.exOccupied := rfl
@[simp] theorem imemLoad_memOccupied : (s.imemLoad a v).memOccupied = s.memOccupied := rfl
@[simp] theorem imemLoad_wbOccupied : (s.imemLoad a v).wbOccupied = s.wbOccupied := rfl
@[simp] theorem imemLoad_idStalled : (s.imemLoad a v).idStalled = s.idStalled := rfl
@[simp] theorem imemLoad_exStalled : (s.imemLoad a v).exStalled = s.exStalled := rfl
@[simp] theorem imemLoad_memStalled : (s.imemLoad a v).memStalled = s.memStalled := rfl
@[simp] theorem imemLoad_wbStalled : (s.imemLoad a v).wbStalled = s.wbStalled := rfl
@[simp] theorem imemLoad_idl : (s.imemLoad a v).idl = s.idl := rfl
@[simp] theorem imemLoad_exl : (s.imemLoad a v).exl = s.exl := rfl
@[simp] theorem imemLoad_meml : (s.imemLoad a v).meml = s.meml := rfl
@[simp] theorem imemLoad_wbl : (s.imemLoad a v).wbl = s.wbl := rfl
@[simp] theorem imemLoad_haltSeen : (s.imemLoad a v).haltSeen = s.haltSeen := rfl
@[simp] theorem imemLoad_halted : (s.imemLoad a v).halted = s.halted := rfl
@[simp] theorem imemLoad_stats : (s.imemLoad a v).stats = s.stats := rfl
@[simp] theorem imemLoad_cfg : (s.imemLoad a v).cfg = s.cfg := rfl
@[simp] theorem imemLoad_flushed : (s.imemLoad a v).flushed = s.flushed := rfl
@[simp] theorem imemLoad_stage : (s.imemLoad a v).stage = s.stage := rfl

end

/-! ## countCycle -/

section
variable (s : State)

@[simp] theorem countCycle_regs : (s.countCycle).regs = s.regs := rfl
@[simp] theorem countCycle_busy : (s.countCycle).busy = s.busy := rfl
@[simp] theorem countCycle_pc : (s.countCycle).pc = s.pc := rfl
@[simp] theorem countCycle_imem : (s.countCycle).imem = s.imem := rfl
@[simp] theorem countCycle_dmem : (s.countCycle).dmem = s.dmem := rfl
@[simp] theorem countCycle_ifOccupied : (s.countCycle).ifOccupied = s.ifOccupied := rfl
@[simp] theorem countCycle_idOccupied : (s.countCycle).idOccupied = s.idOccupied := rfl
@[simp] theorem countCycle_exOccupied : (s.countCycle).exOccupied = s.exOccupied := rfl
@[simp] theorem countCycle_memOccupied : (s.countCycle).memOccupied = s.memOccupied := rfl
@[simp] theorem countCycle_wbOccupied : (s.countCycle).wbOccupied = s.wbOccupied := rfl
@[simp] theorem countCycle_idStalled : (s.countCycle).idStalled = s.idStalled := rfl
@[simp] theorem countCycle_exStalled : (s.countCycle).exStalled = s.exStalled := rfl
@[simp] theorem countCycle_memStalled : (s.countCycle).memStalled = s.memStalled := rfl
@[simp] theorem countCycle_wbStalled : (s.countCycle).wbStalled = s.wbStalled := rfl
@[simp] theorem countCycle_idl : (s.countCycle).idl = s.idl := rfl
@[simp] theorem countCycle_exl : (s.countCycle).exl = s.exl := rfl
@[simp] theorem countCycle_meml : (s.countCycle).meml = s.meml := rfl
@[simp] theorem countCycle_wbl : (s.countCycle).wbl = s.wbl := rfl
@[simp] theorem countCycle_haltSeen : (s.countCycle).haltSeen = s.haltSeen := rfl
@[simp] theorem countCycle_halted : (s.countCycle).halted = s.halted := rfl
@[simp] theorem countCycle_stats : (s.countCycle).stats = { s.stats with cycles := countUp s.cfg s.stats.cycles 1 } := rfl
@[simp] theorem countCycle_cfg : (s.countCycle).cfg = s.cfg := rfl
@[simp] theorem countCycle_flushed : (s.countCycle).flushed = s.flushed := rfl
@[simp] theorem countCycle_stage : (s.countCycle).stage = s.stage := rfl

end

/-! ## countDataStall -/

section
variable (s : State)

@[simp] theorem countDataStall_regs : (s.countDataStall).regs = s.regs := rfl
@[simp] theorem countDataStall_busy : (s.countDataStall).busy = s.busy := rfl
@[simp] theorem countDataStall_pc : (s.countDataStall).pc = s.pc := rfl
@[simp] theorem countDataStall_imem : (s.countDataStall).imem = s.imem := rfl
@[simp] theorem countDataStall_dmem : (s.countDataStall).dmem = s.dmem := rfl
@[simp] theorem countDataStall_ifOccupied : (s.countDataStall).ifOccupied = s.ifOccupied := rfl
@[simp] theorem countDataStall_idOccupied : (s.countDataStall).idOccupied = s.idOccupied := rfl
@[simp] theorem countDataStall_exOccupied : (s.countDataStall).exOccupied = s.exOccupied := rfl
@[simp] theorem countDataStall_memOccupied : (s.countDataStall).memOccupied = s.memOccupied := rfl
@[simp] theorem countDataStall_wbOccupied : (s.countDataStall).wbOccupied = s.wbOccupied := rfl
@[simp] theorem countDataStall_idStalled : (s.countDataStall).idStalled = s.idStalled := rfl
@[simp] theorem countDataStall_exStalled : (s.countDataStall).exStalled = s.exStalled := rfl
@[simp] theorem countDataStall_memStalled : (s.countDataStall).memStalled = s.memStalled := rfl
@[simp] theorem countDataStall_wbStalled : (s.countDataStall).wbStalled = s.wbStalled := rfl
@[simp] theorem countDataStall_idl : (s.countDataStall).idl = s.idl := rfl
@[simp] theorem countDataStall_exl : (s.countDataStall).exl = s.exl := rfl
@[simp] theorem countDataStall_meml : (s.countDataStall).meml = s.meml := rfl
@[simp] theorem countDataStall_wbl : (s.countDataStall).wbl = s.wbl := rfl
@[simp] theorem countDataStall_haltSeen : (s.countDataStall).haltSeen = s.haltSeen := rfl
@[simp] theorem countDataStall_halted : (s.countDataStall).halted = s.halted := rfl
@[simp] theorem countDataStall_stats : (s.countDataStall).stats = { s.stats with dataStalls := countUp s.cfg s.stats.dataStalls 1 } := rfl
@[simp] theorem countDataStall_cfg : (s.countDataStall).cfg = s.cfg := rfl
@[simp] theorem countDataStall_flushed : (s.countDataStall).flushed = s.flushed := rfl
@[simp] theorem countDataStall_stage : (s.countDataStall).stage = s.stage := rfl

end

/-! ## countCtrlStall -/

section
variable (s : State)

@[simp] theorem countCtrlStall_regs : (s.countCtrlStall).regs = s.regs := rfl
@[simp] theorem countCtrlStall_busy : (s.countCtrlStall).busy = s.busy := rfl
@[simp] theorem countCtrlStall_pc : (s.countCtrlStall).pc = s.pc := rfl
@[simp] theorem countCtrlStall_imem : (s.countCtrlStall).imem = s.imem := rfl
@[simp] theorem countCtrlStall_dmem : (s.countCtrlStall).dmem = s.dmem := rfl
@[simp] theorem countCtrlStall_ifOccupied : (s.countCtrlStall).ifOccupied = s.ifOccupied := rfl
@[simp] theorem countCtrlStall_idOccupied : (s.countCtrlStall).idOccupied = s.idOccupied := rfl
@[simp] theorem countCtrlStall_exOccupied : (s.countCtrlStall).exOccupied = s.exOccupied := rfl
@[simp] theorem countCtrlStall_memOccupied : (s.countCtrlStall).memOccupied = s.memOccupied := rfl
@[simp] theorem countCtrlStall_wbOccupied : (s.countCtrlStall).wbOccupied = s.wbOccupied := rfl
@[simp] theorem countCtrlStall_idStalled : (s.countCtrlStall).idStalled = s.idStalled := rfl
@[simp] theorem countCtrlStall_exStalled : (s.countCtrlStall).exStalled = s.exStalled := rfl
@[simp] theorem countCtrlStall_memStalled : (s.countCtrlStall).memStalled = s.memStalled := rfl
@[simp] theorem countCtrlStall_wbStalled : (s.countCtrlStall).wbStalled = s.wbStalled := rfl
@[simp] theorem countCtrlStall_idl : (s.countCtrlStall).idl = s.idl := rfl
@[simp] theorem countCtrlStall_exl : (s.countCtrlStall).exl = s.exl := rfl
@[simp] theorem countCtrlStall_meml : (s.countCtrlStall).meml = s.meml := rfl
@[simp] theorem countCtrlStall_wbl : (s.countCtrlStall).wbl = s.wbl := rfl
@[simp] theorem countCtrlStall_haltSeen : (s.countCtrlStall).haltSeen = s.haltSeen := rfl
@[simp] theorem countCtrlStall_halted : (s.countCtrlStall).halted = s.halted := rfl
@[simp] theorem countCtrlStall_stats : (s.countCtrlStall).stats = { s.stats with ctrlStalls := countUp s.cfg s.stats.ctrlStalls 2 } := rfl
@[simp] theorem countCtrlStall_cfg : (s.countCtrlStall).cfg = s.cfg := rfl
@[simp] theorem countCtrlStall_flushed : (s.countCtrlStall).flushed = s.flushed := rfl
@[simp] theorem countCtrlStall_stage : (s.countCtrlStall).stage = s.stage := rfl

end

/-! ## countClass -/

section
variable (s : State) (c : InstrClass)

@[simp] theorem countClass_regs : (s.countClass c).regs = s.regs := rfl
@[simp] theorem countClass_busy : (s.countClass c).busy = s.busy := rfl
@[simp] theorem countClass_pc : (s.countClass c).pc = s.pc := rfl
@[simp] theorem countClass_imem : (s.countClass c).imem = s.imem := rfl
@[simp] theorem countClass_dmem : (s.countClass c).dmem = s.dmem := rfl
@[simp] theorem countClass_ifOccupied : (s.countClass c).ifOccupied = s.ifOccupied := rfl
@[simp] theorem countClass_idOccupied : (s.countClass c).idOccupied = s.idOccupied := rfl
@[simp] theorem countClass_exOccupied : (s.countClass c).exOccupied = s.exOccupied := rfl
@[simp] theorem countClass_memOccupied : (s.countClass c).memOccupied = s.memOccupied := rfl
@[simp] theorem countClass_wbOccupied : (s.countClass c).wbOccupied = s.wbOccupied := rfl
@[simp] theorem countClass_idStalled : (s.countClass c).idStalled = s.idStalled := rfl
@[simp] theorem countClass_exStalled : (s.countClass c).exStalled = s.exStalled := rfl
@[simp] theorem countClass_memStalled : (s.countClass c).memStalled = s.memStalled := rfl
@[simp] theorem countClass_wbStalled : (s.countClass c).wbStalled = s.wbStalled := rfl
@[simp] theorem countClass_idl : (s.countClass c).idl = s.idl := rfl
@[simp] theorem countClass_exl : (s.countClass c).exl = s.exl := rfl
@[simp] theorem countClass_meml : (s.countClass c).meml = s.meml := rfl
@[simp] theorem countClass_wbl : (s.countClass c).wbl = s.wbl := rfl
@[simp] theorem countClass_haltSeen : (s.countClass c).haltSeen = s.haltSeen := rfl
@[simp] theorem countClass_halted : (s.countClass c).halted = s.halted := rfl
@[simp] theorem countClass_cfg : (s.countClass c).cfg = s.cfg := rfl
@[simp] theorem countClass_flushed : (s.countClass c).flushed = s.flushed := rfl
@[simp] theorem countClass_stage : (s.countClass c).stage = s.stage := rfl

end

/-! ## resolveMatch -/

section
variable (s : State)

@[simp] theorem resolveMatch_regs : (s.resolveMatch).regs = s.regs := rfl
@[simp] theorem resolveMatch_busy : (s.resolveMatch).busy = s.busy := rfl
@[simp] theorem resolveMatch_pc : (s.resolveMatch).pc = s.pc := rfl
@[simp] theorem resolveMatch_imem : (s.resolveMatch).imem = s.imem := rfl
@[simp] theorem resolveMatch_dmem : (s.resolveMatch).dmem = s.dmem := rfl
@[simp] theorem resolveMatch_ifOccupied : (s.resolveMatch).ifOccupied = s.ifOccupied := rfl
@[simp] theorem resolveMatch_idOccupied : (s.resolveMatch).idOccupied = s.idOccupied := rfl
@[simp] theorem resolveMatch_exOccupied : (s.resolveMatch).exOccupied = s.exOccupied := rfl
@[simp] theorem resolveMatch_memOccupied : (s.resolveMatch).memOccupied = s.memOccupied := rfl
@[simp] theorem resolveMatch_wbOccupied : (s.resolveMatch).wbOccupied = s.wbOccupied := rfl
@[simp] theorem resolveMatch_idStalled : (s.resolveMatch).idStalled = false := rfl
@[simp] theorem resolveMatch_exStalled : (s.resolveMatch).exStalled = false := rfl
@[simp] theorem resolveMatch_memStalled : (s.resolveMatch).memStalled = s.memStalled := rfl
@[simp] theorem resolveMatch_wbStalled : (s.resolveMatch).wbStalled = s.wbStalled := rfl
@[simp] theorem resolveMatch_idl : (s.resolveMatch).idl = s.idl := rfl
@[simp] theorem resolveMatch_exl : (s.resolveMatch).exl = s.exl := rfl
@[simp] theorem resolveMatch_meml : (s.resolveMatch).meml = s.meml := rfl
@[simp] theorem resolveMatch_wbl : (s.resolveMatch).wbl = s.wbl := rfl
@[simp] theorem resolveMatch_haltSeen : (s.resolveMatch).haltSeen = s.haltSeen := rfl
@[simp] theorem resolveMatch_halted : (s.resolveMatch).halted = s.halted := rfl
@[simp] theorem resolveMatch_stats : (s.resolveMatch).stats = s.stats := rfl
@[simp] theorem resolveMatch_cfg : (s.resolveMatch).cfg = s.cfg := rfl
@[simp] theorem resolveMatch_flushed : (s.resolveMatch).flushed = s.flushed := rfl
@[simp] theorem resolveMatch_stage : (s.resolveMatch).stage = s.stage := rfl

end

/-! ## flush -/

section
variable (s : State) (a : Byte)

@[simp] theorem flush_regs : (s.flush a).regs = s.regs := rfl
@[simp] theorem flush_busy : (s.flush a).busy = s.busy := rfl
@[simp] theorem flush_pc : (s.flush a).pc = a := rfl
@[simp] theorem flush_imem : (s.flush a).imem = s.imem := rfl
@[simp] theorem flush_dmem : (s.flush a).dmem = s.dmem := rfl
@[simp] theorem flush_ifOccupied : (s.flush a).ifOccupied = s.ifOccupied := rfl
@[simp] theorem flush_idOccupied : (s.flush a).idOccupied = false := rfl
@[simp] theorem flush_exOccupied : (s.flush a).exOccupied = false := rfl
@[simp] theorem flush_memOccupied : (s.flush a).memOccupied = false := rfl
@[simp] theorem flush_wbOccupied : (s.flush a).wbOccupied = false := rfl
@[simp] theorem flush_idStalled : (s.flush a).idStalled = false := rfl
@[simp] theorem flush_exStalled : (s.flush a).exStalled = false := rfl
@[simp] theorem flush_memStalled : (s.flush a).memStalled = false := rfl
@[simp] theorem flush_wbStalled : (s.flush a).wbStalled = false := rfl
@[simp] theorem flush_idl : (s.flush a).idl = s.idl := rfl
@[simp] theorem flush_exl : (s.flush a).exl = s.exl := rfl
@[simp] theorem flush_meml : (s.flush a).meml = s.meml := rfl
@[simp] theorem flush_wbl : (s.flush a).wbl = s.wbl := rfl
@[simp] theorem flush_haltSeen : (s.flush a).haltSeen = s.haltSeen := rfl
@[simp] theorem flush_halted : (s.flush a).halted = s.halted := rfl
@[simp] theorem flush_stats : (s.flush a).stats = s.stats := rfl
@[simp] theorem flush_cfg : (s.flush a).cfg = s.cfg := rfl
@[simp] theorem flush_flushed : (s.flush a).flushed = true := rfl
@[simp] theorem flush_stage : (s.flush a).stage = s.stage := rfl

end

/-! ## issue -/

section
variable (s : State) (a b : Byte)

@[simp] theorem issue_regs : (s.issue a b).regs = s.regs := rfl
@[simp] theorem issue_busy : (s.issue a b).busy = s.busy := rfl
@[simp] theorem issue_pc : (s.issue a b).pc = s.pc := rfl
@[simp] theorem issue_imem : (s.issue a b).imem = s.imem := rfl
@[simp] theorem issue_dmem : (s.issue a b).dmem = s.dmem := rfl
@[simp] theorem issue_ifOccupied : (s.issue a b).ifOccupied = s.ifOccupied := rfl
@[simp] theorem issue_idOccupied : (s.issue a b).idOccupied = false := rfl
@[simp] theorem issue_exOccupied : (s.issue a b).exOccupied = true := rfl
@[simp] theorem issue_memOccupied : (s.issue a b).memOccupied = s.memOccupied := rfl
@[simp] theorem issue_wbOccupied : (s.issue a b).wbOccupied = s.wbOccupied := rfl
@[simp] theorem issue_idStalled : (s.issue a b).idStalled = s.idStalled := rfl
@[simp] theorem issue_exStalled : (s.issue a b).exStalled = s.exStalled := rfl
@[simp] theorem issue_memStalled : (s.issue a b).memStalled = s.memStalled := rfl
@[simp] theorem issue_wbStalled : (s.issue a b).wbStalled = s.wbStalled := rfl
@[simp] theorem issue_idl : (s.issue a b).idl = s.idl := rfl
@[simp] theorem issue_exl : (s.issue a b).exl = { ir := s.idl.ir, pc := s.idl.pc, a := a, b := b } := rfl
@[simp] theorem issue_meml : (s.issue a b).meml = s.meml := rfl
@[simp] theorem issue_wbl : (s.issue a b).wbl = s.wbl := rfl
@[simp] theorem issue_haltSeen : (s.issue a b).haltSeen = s.haltSeen := rfl
@[simp] theorem issue_halted : (s.issue a b).halted = s.halted := rfl
@[simp] theorem issue_stats : (s.issue a b).stats = s.stats := rfl
@[simp] theorem issue_cfg : (s.issue a b).cfg = s.cfg := rfl
@[simp] theorem issue_flushed : (s.issue a b).flushed = s.flushed := rfl
@[simp] theorem issue_stage : (s.issue a b).stage = s.stage := rfl

end

/-! ## toMem -/

section
variable (s : State) (v : Byte) (c : Bool)

@[simp] theorem toMem_regs : (s.toMem v c).regs = s.regs := rfl
@[simp] theorem toMem_busy : (s.toMem v c).busy = s.busy := rfl
@[simp] theorem toMem_pc : (s.toMem v c).pc = s.pc := rfl
@[simp] theorem toMem_imem : (s.toMem v c).imem = s.imem := rfl
@[simp] theorem toMem_dmem : (s.toMem v c).dmem = s.dmem := rfl
@[simp] theorem toMem_ifOccupied : (s.toMem v c).ifOccupied = s.ifOccupied := rfl
@[simp] theorem toMem_idOccupied : (s.toMem v c).idOccupied = s.idOccupied := rfl
@[simp] theorem toMem_exOccupied : (s.toMem v c).exOccupied = false := rfl
@[simp] theorem toMem_memOccupied : (s.toMem v c).memOccupied = true := rfl
@[simp] theorem toMem_wbOccupied : (s.toMem v c).wbOccupied = s.wbOccupied := rfl
@[simp] theorem toMem_idStalled : (s.toMem v c).idStalled = s.idStalled := rfl
@[simp] theorem toMem_exStalled : (s.toMem v c).exStalled = s.exStalled := rfl
@[simp] theorem toMem_memStalled : (s.toMem v c).memStalled = s.memStalled := rfl
@[simp] theorem toMem_wbStalled : (s.toMem v c).wbStalled = s.wbStalled := rfl
@[simp] theorem toMem_idl : (s.toMem v c).idl = s.idl := rfl
@[simp] theorem toMem_exl : (s.toMem v c).exl = s.exl := rfl
@[simp] theorem toMem_meml : (s.toMem v c).meml = { ir := s.exl.ir, pc := s.exl.pc, alu := v, cond := c } := rfl
@[simp] theorem toMem_wbl : (s.toMem v c).wbl = s.wbl := rfl
@[simp] theorem toMem_haltSeen : (s.toMem v c).haltSeen = s.haltSeen := rfl
@[simp] theorem toMem_halted : (s.toMem v c).halted = s.halted := rfl
@[simp] theorem toMem_stats : (s.toMem v c).stats = s.stats := rfl
@[simp] theorem toMem_cfg : (s.toMem v c).cfg = s.cfg := rfl
@[simp] theorem toMem_flushed : (s.toMem v c).flushed = s.flushed := rfl
@[simp] theorem toMem_stage : (s.toMem v c).stage = s.stage := rfl

end

/-! ## consumeMem -/

section
variable (s : State)

@[simp] theorem consumeMem_regs : (s.consumeMem).regs = s.regs := rfl
@[simp] theorem consumeMem_busy : (s.consumeMem).busy = s.busy := rfl
@[simp] theorem consumeMem_pc : (s.consumeMem).pc = s.pc := rfl
@[simp] theorem consumeMem_imem : (s.consumeMem).imem = s.imem := rfl
@[simp] theorem consumeMem_dmem : (s.consumeMem).dmem = s.dmem := rfl
@[simp] theorem consumeMem_ifOccupied : (s.consumeMem).ifOccupied = s.ifOccupied := rfl
@[simp] theorem consumeMem_idOccupied : (s.consumeMem).idOccupied = s.idOccupied := rfl
@[simp] theorem consumeMem_exOccupied : (s.consumeMem).exOccupied = s.exOccupied := rfl
@[simp] theorem consumeMem_memOccupied : (s.consumeMem).memOccupied = false := rfl
@[simp] theorem consumeMem_wbOccupied : (s.consumeMem).wbOccupied = s.wbOccupied := rfl
@[simp] theorem consumeMem_idStalled : (s.consumeMem).idStalled = s.idStalled := rfl
@[simp] theorem consumeMem_exStalled : (s.consumeMem).exStalled = s.exStalled := rfl
@[simp] theorem consumeMem_memStalled : (s.consumeMem).memStalled = s.memStalled := rfl
@[simp] theorem consumeMem_wbStalled : (s.consumeMem).wbStalled = s.wbStalled := rfl
@[simp] theorem consumeMem_idl : (s.consumeMem).idl = s.idl := rfl
@[simp] theorem consumeMem_exl : (s.consumeMem).exl = s.exl := rfl
@[simp] theorem consumeMem_meml : (s.consumeMem).meml = s.meml := rfl
@[simp] theorem consumeMem_wbl : (s.consumeMem).wbl = s.wbl := rfl
@[simp] theorem consumeMem_haltSeen : (s.consumeMem).haltSeen = s.haltSeen := rfl
@[simp] theorem consumeMem_halted : (s.consumeMem).halted = s.halted := rfl
@[simp] theorem consumeMem_stats : (s.consumeMem).stats = s.stats := rfl
@[simp] theorem consumeMem_cfg : (s.consumeMem).cfg = s.cfg := rfl
@[simp] theorem consumeMem_flushed : (s.consumeMem).flushed = s.flushed := rfl
@[simp] theorem consumeMem_stage : (s.consumeMem).stage = s.stage := rfl

end

/-! ## toWb -/

section
variable (s : State) (v : Byte)

@[simp] theorem toWb_regs : (s.toWb v).regs = s.regs := rfl
@[simp] theorem toWb_busy : (s.toWb v).busy = s.busy := rfl
@[simp] theorem toWb_pc : (s.toWb v).pc = s.pc := rfl
@[simp] theorem toWb_imem : (s.toWb v).imem = s.imem := rfl
@[simp] theorem toWb_dmem : (s.toWb v).dmem = s.dmem := rfl
@[simp] theorem toWb_ifOccupied : (s.toWb v).ifOccupied = s.ifOccupied := rfl
@[simp] theorem toWb_idOccupied : (s.toWb v).idOccupied = s.idOccupied := rfl
@[simp] theorem toWb_exOccupied : (s.toWb v).exOccupied = s.exOccupied := rfl
@[simp] theorem toWb_memOccupied : (s.toWb v).memOccupied = s.memOccupied := rfl
@[simp] theorem toWb_wbOccupied : (s.toWb v).wbOccupied = true := rfl
@[simp] theorem toWb_idStalled : (s.toWb v).idStalled = s.idStalled := rfl
@[simp] theorem toWb_exStalled : (s.toWb v).exStalled = s.exStalled := rfl
@[simp] theorem toWb_memStalled : (s.toWb v).memStalled = s.memStalled := rfl
@[simp] theorem toWb_wbStalled : (s.toWb v).wbStalled = s.wbStalled := rfl
@[simp] theorem toWb_idl : (s.toWb v).idl = s.idl := rfl
@[simp] theorem toWb_exl : (s.toWb v).exl = s.exl := rfl
@[simp] theorem toWb_meml : (s.toWb v).meml = s.meml := rfl
@[simp] theorem toWb_wbl : (s.toWb v).wbl = { ir := s.meml.ir, pc := s.meml.pc, val := v } := rfl
@[simp] theorem toWb_haltSeen : (s.toWb v).haltSeen = s.haltSeen := rfl
@[simp] theorem toWb_halted : (s.toWb v).halted = s.halted := rfl
@[simp] theorem toWb_stats : (s.toWb v).stats = s.stats := rfl
@[simp] theorem toWb_cfg : (s.toWb v).cfg = s.cfg := rfl
@[simp] theorem toWb_flushed : (s.toWb v).flushed = s.flushed := rfl
@[simp] theorem toWb_stage : (s.toWb v).stage = s.stage := rfl

end

/-! ## consumeWb -/

section
variable (s : State)

@[simp] theorem consumeWb_regs : (s.consumeWb).regs = s.regs := rfl
@[simp] theorem consumeWb_busy : (s.consumeWb).busy = s.busy := rfl
@[simp] theorem consumeWb_pc : (s.consumeWb).pc = s.pc := rfl
@[simp] theorem consumeWb_imem : (s.consumeWb).imem = s.imem := rfl
@[simp] theorem consumeWb_dmem : (s.consumeWb).dmem = s.dmem := rfl
@[simp] theorem consumeWb_ifOccupied : (s.consumeWb).ifOccupied = s.ifOccupied := rfl
@[simp] theorem consumeWb_idOccupied : (s.consumeWb).idOccupied = s.idOccupied := rfl
@[simp] theorem consumeWb_exOccupied : (s.consumeWb).exOccupied = s.exOccupied := rfl
@[simp] theorem consumeWb_memOccupied : (s.consumeWb).memOccupied = s.memOccupied := rfl
@[simp] theorem consumeWb_wbOccupied : (s.consumeWb).wbOccupied = false := rfl
@[simp] theorem consumeWb_idStalled : (s.consumeWb).idStalled = s.idStalled := rfl
@[simp] theorem consumeWb_exStalled : (s.consumeWb).exStalled = s.exStalled := rfl
@[simp] theorem consumeWb_memStalled : (s.consumeWb).memStalled = s.memStalled := rfl
@[simp] theorem consumeWb_wbStalled : (s.consumeWb).wbStalled = s.wbStalled := rfl
@[simp] theorem consumeWb_idl : (s.consumeWb).idl = s.idl := rfl
@[simp] theorem consumeWb_exl : (s.consumeWb).exl = s.exl := rfl
@[simp] theorem consumeWb_meml : (s.consumeWb).meml = s.meml := rfl
@[simp] theorem consumeWb_wbl : (s.consumeWb).wbl = s.wbl := rfl
@[simp] theorem consumeWb_haltSeen : (s.consumeWb).haltSeen = s.haltSeen := rfl
@[simp] theorem consumeWb_halted : (s.consumeWb).halted = s.halted := rfl
@[simp] theorem consumeWb_stats : (s.consumeWb).stats = s.stats := rfl
@[simp] theorem consumeWb_cfg : (s.consumeWb).cfg = s.cfg := rfl
@[simp] theorem consumeWb_flushed : (s.consumeWb).flushed = s.flushed := rfl
@[simp] theorem consumeWb_stage : (s.consumeWb).stage = s.stage := rfl

end

/-! ## controlStall -/

section
variable (s : State)

@[simp] theorem controlStall_regs : (s.controlStall).regs = s.regs := rfl
@[simp] theorem controlStall_busy : (s.controlStall).busy = s.busy := rfl
@[simp] theorem controlStall_pc : (s.controlStall).pc = s.pc := rfl
@[simp] theorem controlStall_imem : (s.controlStall).imem = s.imem := rfl
@[simp] theorem controlStall_dmem : (s.controlStall).dmem = s.dmem := rfl
@[simp] theorem controlStall_ifOccupied : (s.controlStall).ifOccupied = s.ifOccupied := rfl
@[simp] theorem controlStall_idOccupied : (s.controlStall).idOccupied = s.idOccupied := rfl
@[simp] theorem controlStall_exOccupied : (s.controlStall).exOccupied = s.exOccupied := rfl
@[simp] theorem controlStall_memOccupied : (s.controlStall).memOccupied = s.memOccupied := rfl
@[simp] theorem controlStall_wbOccupied : (s.controlStall).wbOccupied = s.wbOccupied := rfl
@[simp] theorem controlStall_idStalled : (s.controlStall).idStalled = true := rfl
@[simp] theorem controlStall_exStalled : (s.controlStall).exStalled = s.exStalled := rfl
@[simp] theorem controlStall_memStalled : (s.controlStall).memStalled = s.memStalled := rfl
@[simp] theorem controlStall_wbStalled : (s.controlStall).wbStalled = s.wbStalled := rfl
@[simp] theorem controlStall_idl : (s.controlStall).idl = s.idl := rfl
@[simp] theorem controlStall_exl : (s.controlStall).exl = s.exl := rfl
@[simp] theorem controlStall_meml : (s.controlStall).meml = s.meml := rfl
@[simp] theorem controlStall_wbl : (s.controlStall).wbl = s.wbl := rfl
@[simp] theorem controlStall_haltSeen : (s.controlStall).haltSeen = s.haltSeen := rfl
@[simp] theorem controlStall_halted : (s.controlStall).halted = s.halted := rfl
@[simp] theorem controlStall_stats : (s.controlStall).stats = { s.stats with ctrlStalls := countUp s.cfg s.stats.ctrlStalls 2 } := rfl
@[simp] theorem controlStall_cfg : (s.controlStall).cfg = s.cfg := rfl
@[simp] theorem controlStall_flushed : (s.controlStall).flushed = s.flushed := rfl
@[simp] theorem controlStall_stage : (s.controlStall).stage = s.stage := rfl

end

/-! ## stopFetch -/

section
variable (s : State)

@[simp] theorem stopFetch_regs : (s.stopFetch).regs = s.regs := rfl
@[simp] theorem stopFetch_busy : (s.stopFetch).busy = s.busy := rfl
@[simp] theorem stopFetch_pc : (s.stopFetch).pc = s.pc := rfl
@[simp] theorem stopFetch_imem : (s.stopFetch).imem = s.imem := rfl
@[simp] theorem stopFetch_dmem : (s.stopFetch).dmem = s.dmem := rfl
@[simp] theorem stopFetch_ifOccupied : (s.stopFetch).ifOccupied = false := rfl
@[simp] theorem stopFetch_idOccupied : (s.stopFetch).idOccupied = s.idOccupied := rfl
@[simp] theorem stopFetch_exOccupied : (s.stopFetch).exOccupied = s.exOccupied := rfl
@[simp] theorem stopFetch_memOccupied : (s.stopFetch).memOccupied = s.memOccupied := rfl
@[simp] theorem stopFetch_wbOccupied : (s.stopFetch).wbOccupied = s.wbOccupied := rfl
@[simp] theorem stopFetch_idStalled : (s.stopFetch).idStalled = s.idStalled := rfl
@[simp] theorem stopFetch_exStalled : (s.stopFetch).exStalled = s.exStalled := rfl
@[simp] theorem stopFetch_memStalled : (s.stopFetch).memStalled = s.memStalled := rfl
@[simp] theorem stopFetch_wbStalled : (s.stopFetch).wbStalled = s.wbStalled := rfl
@[simp] theorem stopFetch_idl : (s.stopFetch).idl = s.idl := rfl
@[simp] theorem stopFetch_exl : (s.stopFetch).exl = s.exl := rfl
@[simp] theorem stopFetch_meml : (s.stopFetch).meml = s.meml := rfl
@[simp] theorem stopFetch_wbl : (s.stopFetch).wbl = s.wbl := rfl
@[simp] theorem stopFetch_haltSeen : (s.stopFetch).haltSeen = true := rfl
@[simp] theorem stopFetch_halted : (s.stopFetch).halted = s.halted := rfl
@[simp] theorem stopFetch_stats : (s.stopFetch).stats = s.stats := rfl
@[simp] theorem stopFetch_cfg : (s.stopFetch).cfg = s.cfg := rfl
@[simp] theorem stopFetch_flushed : (s.stopFetch).flushed = s.flushed := rfl
@[simp] theorem stopFetch_stage : (s.stopFetch).stage = s.stage := rfl

end

/-! ## fetch -/

section
variable (s : State)

@[simp] theorem fetch_regs : (s.fetch).regs = s.regs := rfl
@[simp] theorem fetch_busy : (s.fetch).busy = s.busy := rfl
@[simp] theorem fetch_pc : (s.fetch).pc = s.pc + 2 := rfl
@[simp] theorem fetch_imem : (s.fetch).imem = s.imem := rfl
@[simp] theorem fetch_dmem : (s.fetch).dmem = s.dmem := rfl
@[simp] theorem fetch_ifOccupied : (s.fetch).ifOccupied = s.ifOccupied := rfl
@[simp] theorem fetch_idOccupied : (s.fetch).idOccupied = true := rfl
@[simp] theorem fetch_exOccupied : (s.fetch).exOccupied = s.exOccupied := rfl
@[simp] theorem fetch_memOccupied : (s.fetch).memOccupied = s.memOccupied := rfl
@[simp] theorem fetch_wbOccupied : (s.fetch).wbOccupied = s.wbOccupied := rfl
@[simp] theorem fetch_idStalled : (s.fetch).idStalled = s.idStalled := rfl
@[simp] theorem fetch_exStalled : (s.fetch).exStalled = s.exStalled := rfl
@[simp] theorem fetch_memStalled : (s.fetch).memStalled = s.memStalled := rfl
@[simp] theorem fetch_wbStalled : (s.fetch).wbStalled = s.wbStalled := rfl
@[simp] theorem fetch_idl : (s.fetch).idl = { ir := s.fetchWord s.pc, pc := s.pc } := rfl
@[simp] theorem fetch_exl : (s.fetch).exl = s.exl := rfl
@[simp] theorem fetch_meml : (s.fetch).meml = s.meml := rfl
@[simp] theorem fetch_wbl : (s.fetch).wbl = s.wbl := rfl
@[simp] theorem fetch_haltSeen : (s.fetch).haltSeen = s.haltSeen := rfl
@[simp] theorem fetch_halted : (s.fetch).halted = s.halted := rfl
@[simp] theorem fetch_stats : (s.fetch).stats = s.stats := rfl
@[simp] theorem fetch_cfg : (s.fetch).cfg = s.cfg := rfl
@[simp] theorem fetch_flushed : (s.fetch).flushed = s.flushed := rfl
@[simp] theorem fetch_stage : (s.fetch).stage = s.stage := rfl

end

/-! ## rest -/

section
variable (s : State)

@[simp] theorem rest_regs : (s.rest).regs = s.regs := rfl
@[simp] theorem rest_busy : (s.rest).busy = s.busy := rfl
@[simp] theorem rest_pc : (s.rest).pc = s.pc := rfl
@[simp] theorem rest_imem : (s.rest).imem = s.imem := rfl
@[simp] theorem rest_dmem : (s.rest).dmem = s.dmem := rfl
@[simp] theorem rest_ifOccupied : (s.rest).ifOccupied = s.ifOccupied := rfl
@[simp] theorem rest_idOccupied : (s.rest).idOccupied = s.idOccupied := rfl
@[simp] theorem rest_exOccupied : (s.rest).exOccupied = s.exOccupied := rfl
@[simp] theorem rest_memOccupied : (s.rest).memOccupied = s.memOccupied := rfl
@[simp] theorem rest_wbOccupied : (s.rest).wbOccupied = s.wbOccupied := rfl
@[simp] theorem rest_idStalled : (s.rest).idStalled = s.idStalled := rfl
@[simp] theorem rest_exStalled : (s.rest).exStalled = s.exStalled := rfl
@[simp] theorem rest_memStalled : (s.rest).memStalled = s.memStalled := rfl
@[simp] theorem rest_wbStalled : (s.rest).wbStalled = s.wbStalled := rfl
@[simp] theorem rest_idl : (s.rest).idl = s.idl := rfl
@[simp] theorem rest_exl : (s.rest).exl = s.exl := rfl
@[simp] theorem rest_meml : (s.rest).meml = s.meml := rfl
@[simp] theorem rest_wbl : (s.rest).wbl = s.wbl := rfl
@[simp] theorem rest_haltSeen : (s.rest).haltSeen = s.haltSeen := rfl
@[simp] theorem rest_halted : (s.rest).halted = s.halted := rfl
@[simp] theorem rest_stats : (s.rest).stats = s.stats := rfl
@[simp] theorem rest_cfg : (s.rest).cfg = s.cfg := rfl
@[simp] theorem rest_flushed : (s.rest).flushed = false := rfl
@[simp] theorem rest_stage : (s.rest).stage = .wb := rfl

end

/-! ## writeReg -/

section
variable (s : State) (i : RegIdx) (v : Byte)

@[simp] theorem writeReg_regs : (s.writeReg i v).regs = if i = 0 then s.regs else s.regs.set i v := by
  unfold State.writeReg; split <;> rfl
@[simp] theorem writeReg_busy : (s.writeReg i v).busy = s.busy := by
  unfold State.writeReg; split <;> rfl
@[simp] theorem writeReg_pc : (s.writeReg i v).pc = s.pc := by
  unfold State.writeReg; split <;> rfl
@[simp] theorem writeReg_imem : (s.writeReg i v).imem = s.imem := by
  unfold State.writeReg; split <;> rfl
@[simp] theorem writeReg_dmem : (s.writeReg i v).dmem = s.dmem := by
  unfold State.writeReg; split <;> rfl
@[simp] theorem writeReg_ifOccupied : (s.writeReg i v).ifOccupied = s.ifOccupied := by
  unfold State.writeReg; split <;> rfl
@[simp] theorem writeReg_idOccupied : (s.writeReg i v).idOccupied = s.idOccupied := by
  unfold State.writeReg; split <;> rfl
@[simp] theorem writeReg_exOccupied : (s.writeReg i v).exOccupied = s.exOccupied := by
  unfold State.writeReg; split <;> rfl
@[simp] theorem writeReg_memOccupied : (s.writeReg i v).memOccupied = s.memOccupied := by
  unfold State.writeReg; split <;> rfl
@[simp] theorem writeReg_wbOccupied : (s.writeReg i v).wbOccupied = s.wbOccupied := by
  unfold State.writeReg; split <;> rfl
@[simp] theorem writeReg_idStalled : (s.writeReg i v).idStalled = s.idStalled := by
  unfold State.writeReg; split <;> rfl
@[simp] theorem writeReg_exStalled : (s.writeReg i v).exStalled = s.exStalled := by
  unfold State.writeReg; split <;> rfl
@[simp] theorem writeReg_memStalled : (s.writeReg i v).memStalled = s.memStalled := by
  unfold State.writeReg; split <;> rfl
@[simp] theorem writeReg_wbStalled : (s.writeReg i v).wbStalled = s.wbStalled := by
  unfold State.writeReg; split <;> rfl
@[simp] theorem writeReg_idl : (s.writeReg i v).idl = s.idl := by
  unfold State.writeReg; split <;> rfl
@[simp] theorem writeReg_exl : (s.writeReg i v).exl = s.exl := by
  unfold State.writeReg; split <;> rfl
@[simp] theorem writeReg_meml : (s.writeReg i v).meml = s.meml := by
  unfold State.writeReg; split <;> rfl
@[simp] theorem writeReg_wbl : (s.writeReg i v).wbl = s.wbl := by
  unfold State.writeReg; split <;> rfl
@[simp] theorem writeReg_haltSeen : (s.writeReg i v).haltSeen = s.haltSeen := by
  unfold State.writeReg; split <;> rfl
@[simp] theorem writeReg_halted : (s.writeReg i v).halted = s.halted := by
  unfold State.writeReg; split <;> rfl
@[simp] theorem writeReg_stats : (s.writeReg i v).stats = s.stats := by
  unfold State.writeReg; split <;> rfl
@[simp] theorem writeReg_cfg : (s.writeReg i v).cfg = s.cfg := by
  unfold State.writeReg; split <;> rfl
@[simp] theorem writeReg_flushed : (s.writeReg i v).flushed = s.flushed := by
  unfold State.writeReg; split <;> rfl
@[simp] theorem writeReg_stage : (s.writeReg i v).stage = s.stage := by
  unfold State.writeReg; split <;> rfl

end

/-! ## regLoad -/

section
variable (s : State) (i : RegIdx) (v : Byte)

@[simp] theorem regLoad_regs : (s.regLoad i v).regs = s.regs.set i v := rfl
@[simp] theorem regLoad_busy : (s.regLoad i v).busy = s.busy := rfl
@[simp] theorem regLoad_pc : (s.regLoad i v).pc = s.pc := rfl
@[simp] theorem regLoad_imem : (s.regLoad i v).imem = s.imem := rfl
@[simp] theorem regLoad_dmem : (s.regLoad i v).dmem = s.dmem := rfl
@[simp] theorem regLoad_ifOccupied : (s.regLoad i v).ifOccupied = s.ifOccupied := rfl
@[simp] theorem regLoad_idOccupied : (s.regLoad i v).idOccupied = s.idOccupied := rfl
@[simp] theorem regLoad_exOccupied : (s.regLoad i v).exOccupied = s.exOccupied := rfl
@[simp] theorem regLoad_memOccupied : (s.regLoad i v).memOccupied = s.memOccupied := rfl
@[simp] theorem regLoad_wbOccupied : (s.regLoad i v).wbOccupied = s.wbOccupied := rfl
@[simp] theorem regLoad_idStalled : (s.regLoad i v).idStalled = s.idStalled := rfl
@[simp] theorem regLoad_exStalled : (s.regLoad i v).exStalled = s.exStalled := rfl
@[simp] theorem regLoad_memStalled : (s.regLoad i v).memStalled = s.memStalled := rfl
@[simp] theorem regLoad_wbStalled : (s.regLoad i v).wbStalled = s.wbStalled := rfl
@[simp] theorem regLoad_idl : (s.regLoad i v).idl = s.idl := rfl
@[simp] theorem regLoad_exl : (s.regLoad i v).exl = s.exl := rfl
@[simp] theorem regLoad_meml : (s.regLoad i v).meml = s.meml := rfl
@[simp] theorem regLoad_wbl : (s.regLoad i v).wbl = s.wbl := rfl
@[simp] theorem regLoad_haltSeen : (s.regLoad i v).haltSeen = s.haltSeen := rfl
@[simp] theorem regLoad_halted : (s.regLoad i v).halted = s.halted := rfl
@[simp] theorem regLoad_stats : (s.regLoad i v).stats = s.stats := rfl
@[simp] theorem regLoad_cfg : (s.regLoad i v).cfg = s.cfg := rfl
@[simp] theorem regLoad_flushed : (s.regLoad i v).flushed = s.flushed := rfl
@[simp] theorem regLoad_stage : (s.regLoad i v).stage = s.stage := rfl

end

/-! ## The class counter, one lemma per class -/

@[simp] theorem countClass_arith (s : State) :
    (s.countClass .arith).stats = { s.stats with nArith := countUp s.cfg s.stats.nArith 1 } := rfl
@[simp] theorem countClass_logic (s : State) :
    (s.countClass .logic).stats = { s.stats with nLogic := countUp s.cfg s.stats.nLogic 1 } := rfl
@[simp] theorem countClass_data (s : State) :
    (s.countClass .data).stats = { s.stats with nData := countUp s.cfg s.stats.nData 1 } := rfl
@[simp] theorem countClass_ctrl (s : State) :
    (s.countClass .ctrl).stats = { s.stats with nCtrl := countUp s.cfg s.stats.nCtrl 1 } := rfl
@[simp] theorem countClass_halt (s : State) :
    (s.countClass .halt).stats = { s.stats with nHalt := countUp s.cfg s.stats.nHalt 1 } := rfl

end Sys2Proof.Machine
end

