-- ==== Sys2Proof/Laws/Memory.lean ====
section
/-! SUPPORT. The stores: the canonical form as a proposition, read after write, that every memory operation keeps the canonical
form, and that in it equal contents are equal lists. -/

namespace Sys2Proof.Machine

/-! ## The canonical form -/

/-- The canonical form, cell by cell. -/
theorem Memory.wf_cons (k : Nat) (u : Byte) (m : Memory) :
    Memory.wf ((k, u) :: m) = true ↔
      k < storeSize ∧ u ≠ Memory.unlisted ∧ (∀ c ∈ m, k < c.1) ∧ Memory.wf m = true := by
  induction m generalizing k u with
  | nil => simp [Memory.wf]
  | cons c m ih =>
    obtain ⟨k', u'⟩ := c
    have hc := ih k' u'
    simp only [Memory.wf, Bool.and_eq_true, decide_eq_true_eq] at hc ⊢
    constructor
    · rintro ⟨⟨⟨hlt, hk⟩, hu⟩, hw⟩
      refine ⟨hk, hu, ?_, hw⟩
      intro c hm
      rcases List.mem_cons.1 hm with rfl | hm
      · exact hlt
      · exact lt_trans hlt ((hc.1 hw).2.2.1 c hm)
    · rintro ⟨hk, hu, hall, hw⟩
      exact ⟨⟨⟨hall _ (List.mem_cons_self ..), hk⟩, hu⟩, hw⟩

/-- An address that no cell lists reads as the unlisted byte. -/
theorem Memory.read_absent (m : Memory) (a : Nat) (h : ∀ c ∈ m, c.1 ≠ a) : Memory.read m a = Memory.unlisted := by
  induction m with
  | nil => rfl
  | cons c m ih =>
    obtain ⟨k, u⟩ := c
    have hk : k ≠ a := h (k, u) (by simp)
    simp [Memory.read, hk, ih fun c hc => h c (by simp [hc])]

/-! ## Read after write -/

theorem Memory.read_write (m : Memory) (a b : Nat) (v : Byte) (h : Memory.wf m = true) :
    Memory.read (Memory.write m a v) b = if a = b then v else Memory.read m b := by
  induction m with
  | nil => by_cases hu : v = Memory.unlisted <;> by_cases hab : a = b <;> simp [Memory.write, Memory.read, hu, hab]
  | cons c m ih =>
    obtain ⟨k, u⟩ := c
    obtain ⟨_, _, hall, hw⟩ := (Memory.wf_cons k u m).1 h
    have hbelow : ∀ x, x ≤ k → Memory.read m x = Memory.unlisted := fun x hx =>
      Memory.read_absent m x fun c hc => by have := hall c hc; omega
    rcases lt_trichotomy k a with hka | rfl | hka
    · simp only [Memory.write, hka, if_true, Memory.read, ih hw]
      split <;> split <;> first | rfl | omega
    · by_cases hu : v = Memory.unlisted <;> by_cases hb : k = b
      · subst hb; simp [Memory.write, hu, hbelow]
      · simp [Memory.write, hu, hb, Memory.read]
      · subst hb; simp [Memory.write, hu, Memory.read]
      · simp [Memory.write, hu, hb, Memory.read]
    · have h1 : ¬ k < a := by omega
      have h2 : k ≠ a := by omega
      by_cases hu : v = Memory.unlisted <;> by_cases hb : a = b
      · subst hb
        have := hbelow a (by omega)
        simp [Memory.write, h1, h2, hu, Memory.read, this]
      · simp [Memory.write, h1, h2, hu, hb]
      · subst hb; simp [Memory.write, h1, h2, hu, Memory.read]
      · rw [Memory.write, if_neg h1, if_neg h2]
        simp [hu, hb, Memory.read]

/-! ## Every memory operation keeps the canonical form -/

/-- A write lists no address but the written one beside those listed before. -/
theorem Memory.mem_write (m : Memory) (a : Nat) (v : Byte) (c : Host.Cell) (h : c ∈ Memory.write m a v) :
    c ∈ m ∨ c.1 = a := by
  induction m with
  | nil =>
    by_cases hu : v = Memory.unlisted
    · simp [Memory.write, hu] at h
    · simp [Memory.write, hu] at h; simp [h]
  | cons d m ih =>
    obtain ⟨k, u⟩ := d
    by_cases hka : k < a
    · rw [Memory.write, if_pos hka] at h
      rcases List.mem_cons.1 h with rfl | h
      · simp
      · rcases ih h with h | h <;> simp [h]
    · rw [Memory.write, if_neg hka] at h
      by_cases hk : k = a <;> by_cases hu : v = Memory.unlisted <;> simp only [hk, hu, if_true, if_false] at h
      · simp [h]
      · rcases List.mem_cons.1 h with rfl | h <;> simp [*]
      · simp [h]
      · rcases List.mem_cons.1 h with rfl | h <;> simp [*]

theorem Memory.write_wf (m : Memory) (a : Nat) (v : Byte) (h : Memory.wf m = true) (ha : a < storeSize) :
    Memory.wf (Memory.write m a v) = true := by
  induction m with
  | nil =>
    by_cases hu : v = Memory.unlisted
    · simp [Memory.write, hu, Memory.wf]
    · simp [Memory.write, hu, Memory.wf, ha]
  | cons c m ih =>
    obtain ⟨k, u⟩ := c
    obtain ⟨hk, hu', hall, hw⟩ := (Memory.wf_cons k u m).1 h
    rcases lt_trichotomy k a with hka | rfl | hka
    · rw [Memory.write, if_pos hka, Memory.wf_cons]
      refine ⟨hk, hu', fun c hc => ?_, ih hw⟩
      rcases Memory.mem_write m a v c hc with hc | hc
      · exact hall c hc
      · omega
    · by_cases hu : v = Memory.unlisted
      · simpa [Memory.write, hu] using hw
      · simp only [Memory.write, lt_irrefl, if_false, if_true, hu]
        exact (Memory.wf_cons k v m).2 ⟨hk, hu, hall, hw⟩
    · have hwr : Memory.write ((k, u) :: m) a v = if v = Memory.unlisted then (k, u) :: m else (a, v) :: (k, u) :: m := by
        rw [Memory.write, if_neg (by omega)]
        simp [show k ≠ a by omega]
      rw [hwr]
      by_cases hu : v = Memory.unlisted
      · simpa [hu] using h
      · rw [if_neg hu]
        refine (Memory.wf_cons a v _).2 ⟨ha, hu, fun c hc => ?_, h⟩
        rcases List.mem_cons.1 hc with rfl | hc
        · exact hka
        · exact lt_trans hka (hall c hc)

theorem addrOf_lt (a : Byte) : addrOf a < storeSize := Nat.mod_lt _ (by decide)

/-- The modulo of R41 changes no 8-bit address. -/
@[simp] theorem addrOf_eq (a : Byte) : addrOf a = a.toNat := Nat.mod_eq_of_lt a.isLt

theorem memWrite_wf (s : State) (a v : Byte) (h : Memory.wf s.dmem = true) : Memory.wf (s.memWrite a v).dmem = true :=
  Memory.write_wf _ _ _ h (addrOf_lt a)

theorem imemLoad_wf (s : State) (a v : Byte) (h : Memory.wf s.imem = true) : Memory.wf (s.imemLoad a v).imem = true :=
  Memory.write_wf _ _ _ h (addrOf_lt a)

theorem imemLoadWord_wf (s : State) (a : Byte) (ir : Word) (h : Memory.wf s.imem = true) :
    Memory.wf (s.imemLoadWord a ir).imem = true :=
  imemLoad_wf _ _ _ (imemLoad_wf _ _ _ h)

theorem Memory.ofTokens_wf (k : Nat) (vs : List Byte) (h : k + vs.length ≤ storeSize) :
    Memory.wf (Memory.ofTokens k vs) = true ∧ ∀ c ∈ Memory.ofTokens k vs, k ≤ c.1 := by
  induction vs generalizing k with
  | nil => simp [Memory.ofTokens, Memory.wf]
  | cons v vs ih =>
    simp only [List.length_cons] at h
    obtain ⟨hw, hge⟩ := ih (k + 1) (by omega)
    by_cases hu : v = Memory.unlisted
    · simp only [Memory.ofTokens, hu, if_true]
      exact ⟨hw, fun c hc => by have := hge c hc; omega⟩
    · simp only [Memory.ofTokens, hu, if_false]
      refine ⟨(Memory.wf_cons k v _).2 ⟨by omega, hu, fun c hc => by have := hge c hc; omega, hw⟩, fun c hc => ?_⟩
      rcases List.mem_cons.1 hc with rfl | hc
      · exact le_rfl
      · have := hge c hc; omega

theorem Memory.read_ofTokens (k : Nat) (vs : List Byte) (a : Nat) (h : k + vs.length ≤ storeSize) :
    Memory.read (Memory.ofTokens k vs) a = if k ≤ a then vs.getD (a - k) 0 else Memory.unlisted := by
  induction vs generalizing k with
  | nil => simp [Memory.ofTokens, Memory.read, Memory.unlisted]
  | cons v vs ih =>
    simp only [List.length_cons] at h
    have ih := ih (k + 1) (by omega)
    rcases lt_trichotomy a k with hak | rfl | hak
    · have h1 : ¬ k ≤ a := by omega
      have h2 : ¬ k + 1 ≤ a := by omega
      have h3 : k ≠ a := by omega
      by_cases hu : v = Memory.unlisted <;> simp [Memory.ofTokens, hu, Memory.read, ih, h1, h2, h3]
    · have h2 : ¬ a + 1 ≤ a := by omega
      by_cases hu : v = Memory.unlisted
      · simp [Memory.ofTokens, hu, ih]
      · simp [Memory.ofTokens, hu, Memory.read]
    · have h1 : k ≤ a := by omega
      have h2 : k + 1 ≤ a := by omega
      have h3 : k ≠ a := by omega
      have h4 : a - k = (a - (k + 1)) + 1 := by omega
      by_cases hu : v = Memory.unlisted <;> simp [Memory.ofTokens, hu, Memory.read, ih, h1, h2, h3, h4]

/-! ## The stores through the machine's accessors (R7, R46, R47) -/

theorem memRead_memWrite (s : State) (a b v : Byte) (h : Memory.wf s.dmem = true) :
    (s.memWrite a v).memRead b = if a = b then v else s.memRead b := by
  simp only [State.memRead, memWrite_dmem, Memory.read_write _ _ _ _ h, addrOf_eq]
  by_cases hab : a = b
  · simp [hab]
  · simp [hab, BitVec.toNat_inj]

theorem imemRead_imemLoad (s : State) (a b v : Byte) (h : Memory.wf s.imem = true) :
    (s.imemLoad a v).imemRead b = if a = b then v else s.imemRead b := by
  simp only [State.imemRead, imemLoad_imem, Memory.read_write _ _ _ _ h, addrOf_eq]
  by_cases hab : a = b
  · simp [hab]
  · simp [hab, BitVec.toNat_inj]

/-! ## Equal contents are equal data -/

theorem Memory.ext_of_read (m m' : Memory) (h : Memory.wf m = true) (h' : Memory.wf m' = true)
    (hr : ∀ a, a < storeSize → Memory.read m a = Memory.read m' a) : m = m' := by
  induction m generalizing m' with
  | nil =>
    cases m' with
    | nil => rfl
    | cons c m' =>
      obtain ⟨k, u⟩ := c
      obtain ⟨hk, hu, _, _⟩ := (Memory.wf_cons k u m').1 h'
      exact absurd (hr k hk) (by simpa [Memory.read] using fun h => hu h.symm)
  | cons c m ih =>
    obtain ⟨k, u⟩ := c
    obtain ⟨hk, hu, hall, hw⟩ := (Memory.wf_cons k u m).1 h
    cases m' with
    | nil => exact absurd (hr k hk) (by simpa [Memory.read] using hu)
    | cons c' m' =>
      obtain ⟨k', u'⟩ := c'
      obtain ⟨hk', hu', hall', hw'⟩ := (Memory.wf_cons k' u' m').1 h'
      have low : ∀ x, x ≤ k → Memory.read m x = Memory.unlisted := fun x hx =>
        Memory.read_absent m x fun c hc => by have := hall c hc; omega
      have low' : ∀ x, x ≤ k' → Memory.read m' x = Memory.unlisted := fun x hx =>
        Memory.read_absent m' x fun c hc => by have := hall' c hc; omega
      have hkk : k = k' := by
        rcases lt_trichotomy k k' with hlt | heq | hgt
        · have := hr k hk
          have hne : k' ≠ k := by omega
          simp [Memory.read, hne, low' k (by omega)] at this
          exact absurd this hu
        · exact heq
        · have := hr k' hk'
          have hne : k ≠ k' := by omega
          simp [Memory.read, hne, low k' (by omega)] at this
          exact absurd this.symm hu'
      subst hkk
      have huu : u = u' := by simpa [Memory.read] using hr k hk
      subst huu
      have : m = m' := ih m' hw hw' fun a ha => by
        have := hr a ha
        by_cases hak : k = a
        · subst hak; rw [low k le_rfl, low' k le_rfl]
        · simpa [Memory.read, hak] using this
      rw [this]

end Sys2Proof.Machine
end

