-- ==== Sys2Proof/Laws/Ops.lean ====
section
/-! SUPPORT. The shared operations: what each can do, said once. -/

namespace Sys2Proof.Machine

/-! ## Sequencing -/

@[simp] theorem andThen_next (s : State) (f : State → Result) : andThen (.next s) f = f s := rfl

/-- A sequence answers a next state exactly when both parts do. -/
theorem andThen_eq_next {r : Result} {f : State → Result} {t : State} :
    andThen r f = .next t ↔ ∃ s, r = .next s ∧ f s = .next t := by
  cases r <;> simp [andThen]

/-! ## Registers and scoreboard -/

theorem x_writeReg (s : State) (i j : RegIdx) (v : Byte) :
    (s.writeReg i v).x j = if i = j ∧ i ≠ 0 then v else s.x j := by
  by_cases h0 : i = 0
  · subst h0; simp [State.writeReg]
  · by_cases hij : i = j
    · subst hij; simp [State.writeReg, State.x, h0]
    · have : (i : Nat) ≠ j := fun h => hij (Fin.ext h)
      simp [State.writeReg, State.x, h0, hij, Vector.getElem_set_ne, this]

theorem isBusy_setBusy (s : State) (i j : RegIdx) (b : Bool) :
    (s.setBusy i b).isBusy j = if i = j then b else s.isBusy j := by
  by_cases hij : i = j
  · subst hij; simp [State.setBusy, State.isBusy]
  · have : (i : Nat) ≠ j := fun h => hij (Fin.ext h)
    simp [State.setBusy, State.isBusy, hij, Vector.getElem_set_ne, this]

/-- What a register reads as depends on the register file alone; likewise the scoreboard and the stores. -/
theorem x_congr {s t : State} (h : s.regs = t.regs) (i : RegIdx) : s.x i = t.x i := by simp [State.x, h]
theorem isBusy_congr {s t : State} (h : s.busy = t.busy) (i : RegIdx) : s.isBusy i = t.isBusy i := by
  simp [State.isBusy, h]
theorem memRead_congr {s t : State} (h : s.dmem = t.dmem) (a : Byte) : s.memRead a = t.memRead a := by
  simp [State.memRead, h]
theorem fetchWord_congr {s t : State} (h : s.imem = t.imem) (hc : s.cfg = t.cfg) (a : Byte) :
    s.fetchWord a = t.fetchWord a := by
  simp [State.fetchWord, State.imemRead, h, hc]

/-- A word placed in a canonical Instruction Store is the word fetched there. -/
theorem fetchWord_imemLoadWord (s : State) (a : Byte) (ir : Word) (h : Memory.wf s.imem = true) :
    (s.imemLoadWord a ir).fetchWord a = ir := by
  have hne : a + 1 ≠ a := by simp
  simp only [State.fetchWord, State.imemLoadWord, imemRead_imemLoad _ _ _ _ (imemLoad_wf _ _ _ h), imemRead_imemLoad _ _ _ _ h,
    if_neg hne, if_true, imemLoad_cfg, wordOfBytes_bytesOfWord]

theorem hazard_iff (s : State) (l : List RegIdx) : s.hazard l = true ↔ ∃ r ∈ l, s.isBusy r = true := by
  simp [State.hazard]

/-! ## Counters -/

/-- With unbounded counters a count is a sum. -/
theorem countUp_none {cfg : Config} (h : cfg.ctrWidth = none) (n k : Nat) : countUp cfg n k = n + k := by
  simp [countUp, h]

/-- A count that fits its width is a sum. -/
theorem countUp_fits {cfg : Config} {w : Nat} (h : cfg.ctrWidth = some w) {n k : Nat} (hf : n + k < 2 ^ w) :
    countUp cfg n k = n + k := by
  simp [countUp, h, hf]

/-! ## The issue of a checked instruction -/

theorem checked_of_hazard {s : State} {l : List RegIdx} (go : State → State) (h : s.hazard l = true) :
    s.checked l go = s.countDataStall := by
  simp [State.checked, h]

theorem checked_of_free {s : State} {l : List RegIdx} (go : State → State) (h : s.hazard l = false) :
    s.checked l go = go s := by
  simp [State.checked, h]

/-! ## Branch resolution -/

/-- Resolution changes nothing but the flags of the latches and stalls, `PC` and the flush signal. -/
theorem resolve_match (s : State) {a : Byte} (h : a = s.pc) : s.resolve a = s.resolveMatch := by simp [State.resolve, h]
theorem resolve_differ (s : State) {a : Byte} (h : a ≠ s.pc) : s.resolve a = s.flush a := by simp [State.resolve, h]

end Sys2Proof.Machine
end

