-- ==== Sys2Proof/Laws/PerInstr.lean ====
section
/-! SUPPORT. Statements for all instructions, one lemma per constructor. -/

namespace Sys2Proof.Laws

/-- An assembler's word: the instruction is well formed (R72) and its encoding sets no ignored bit (R68, R73). -/
def EncodesCanonically.Statement (i : Instr) : Prop := i.wellFormed = true ∧ (encode i).canonical = true

namespace EncodesCanonically

theorem add (d : RegIdx) (s : RegIdx) (t : RegIdx) : Statement (.add d s t) :=
  ⟨rfl, canonical_full _ (by simp [encode, fieldMask])⟩

theorem sub (d : RegIdx) (s : RegIdx) (t : RegIdx) : Statement (.sub d s t) :=
  ⟨rfl, canonical_full _ (by simp [encode, fieldMask])⟩

theorem mul (d : RegIdx) (s : RegIdx) (t : RegIdx) : Statement (.mul d s t) :=
  ⟨rfl, canonical_full _ (by simp [encode, fieldMask])⟩

theorem inc (r : RegIdx) : Statement (.inc r) :=
  ⟨rfl, canonical_masked _ 0xFF00#16 (by simp [encode, fieldMask]) fun k hk h => by
    rw [encode, getLsbD_nibbles] at h
    interval_cases k <;> simp_all⟩

theorem and (d : RegIdx) (s : RegIdx) (t : RegIdx) : Statement (.and d s t) :=
  ⟨rfl, canonical_full _ (by simp [encode, fieldMask])⟩

theorem or (d : RegIdx) (s : RegIdx) (t : RegIdx) : Statement (.or d s t) :=
  ⟨rfl, canonical_full _ (by simp [encode, fieldMask])⟩

theorem not (d : RegIdx) (s : RegIdx) : Statement (.not d s) :=
  ⟨rfl, canonical_masked _ 0xFFF0#16 (by simp [encode, fieldMask]) fun k hk h => by
    rw [encode, getLsbD_nibbles] at h
    interval_cases k <;> simp_all⟩

theorem xor (d : RegIdx) (s : RegIdx) (t : RegIdx) : Statement (.xor d s t) :=
  ⟨rfl, canonical_full _ (by simp [encode, fieldMask])⟩

theorem load (d : RegIdx) (b : RegIdx) (i : BitVec 4) : Statement (.load d b i) :=
  ⟨rfl, canonical_full _ (by simp [encode, fieldMask])⟩

theorem store (v : RegIdx) (b : RegIdx) (i : BitVec 4) : Statement (.store v b i) :=
  ⟨rfl, canonical_full _ (by simp [encode, fieldMask])⟩

theorem jmp (i : BitVec 8) : Statement (.jmp i) :=
  ⟨rfl, canonical_masked _ 0xFFF0#16 (by simp [encode, fieldMask]) fun k hk h => by
    rw [encode, getLsbD_nibbles] at h
    interval_cases k <;> simp_all⟩

theorem beqz (c : RegIdx) (i : BitVec 8) : Statement (.beqz c i) :=
  ⟨rfl, canonical_full _ (by simp [encode, fieldMask])⟩

theorem undef12 : Statement (.undef12) :=
  ⟨rfl, by decide⟩

theorem undef13 : Statement (.undef13) :=
  ⟨rfl, by decide⟩

theorem undef14 : Statement (.undef14) :=
  ⟨rfl, by decide⟩

theorem halt : Statement (.halt) :=
  ⟨rfl, by decide⟩

end EncodesCanonically

end Sys2Proof.Laws
end

