-- ==== Sys2Proof/Laws/Pipeline.lean ====
section
/-! SUPPORT. What each stage does with any instruction, in terms of its attributes `srcs`, `dst`, `instrClass`: the four forms of
`exec`, the stage functions by cases, and the inversion of a step into its five stage evaluations. -/

namespace Sys2Proof.Machine

/-! ## The operands and results of an instruction, by constructor -/

/-- The operand values ID reads (R91). -/
def operands : Instr → State → Byte × Byte
  | .add _ a b, s | .sub _ a b, s | .mul _ a b, s | .and _ a b, s | .or _ a b, s | .xor _ a b, s => (s.x a, s.x b)
  | .inc r, s => (s.x r, 0)
  | .not _ a, s => (s.x a, 0)
  | .load _ b _, s => (s.x b, 0)
  | .store v b _, s => (s.x b, s.x v)
  | .beqz c _, s => (s.x c, 0)
  | .jmp _, _ | .undef12, _ | .undef13, _ | .undef14, _ | .halt, _ => (0, 0)

/-- The `alu` and `cond` EX computes from `EXL.a`, `EXL.b` and the live `PC` (R93). -/
def result : Instr → State → Byte × Bool
  | .add _ _ _, s => (s.exl.a + s.exl.b, false)
  | .sub _ _ _, s => (s.exl.a - s.exl.b, false)
  | .mul _ _ _, s => (s.exl.a * s.exl.b, false)
  | .inc _, s => (s.exl.a + 1, false)
  | .and _ _ _, s => (s.exl.a &&& s.exl.b, false)
  | .or _ _ _, s => (s.exl.a ||| s.exl.b, false)
  | .not _ _, s => (~~~s.exl.a, false)
  | .xor _ _ _, s => (s.exl.a ^^^ s.exl.b, false)
  | .load _ _ i, s | .store _ _ i, s => (effectiveAddress s.cfg s.exl.a i, false)
  | .jmp i, s => (branchTarget s.pc i, true)
  | .beqz _ i, s => (beqzTarget s.pc s.exl.a i, s.exl.a == 0)
  | .undef12, _ | .undef13, _ | .undef14, _ | .halt, _ => (0, false)

/-- The state after an issue (R91, R92). -/
def State.issued (s : State) (i : Instr) : State :=
  { s with
    busy := match dst i with
      | some d => s.busy.set d true
      | none => s.busy
    stats := if isControl i then { s.stats with ctrlStalls := countUp s.cfg s.stats.ctrlStalls 2 } else s.stats
    idStalled := isControl i || s.idStalled
    haltSeen := decide (i = .halt) || s.haltSeen
    ifOccupied := !decide (i = .halt) && s.ifOccupied
    idOccupied := false
    exl := { ir := s.idl.ir, pc := s.idl.pc, a := (operands i s).1, b := (operands i s).2 }
    exOccupied := true }

/-- What MEM does before its deposit: the flags, `PC` or Data Store it changes (R95 to R97). -/
def State.memActed (s : State) : Instr → State
  | .store v _ _ => s.consumeMem.memWrite s.meml.alu (s.x v)
  | .jmp _ | .beqz _ _ => s.consumeMem.resolve s.meml.alu
  | _ => s.consumeMem

/-- The byte MEM carries to WB (R95). -/
def State.memVal (s : State) : Instr → Byte
  | .load _ _ _ => s.memRead s.meml.alu
  | _ => s.meml.alu

/-- The state after a retirement (R98, R99). -/
def State.retired (s : State) (i : Instr) : State :=
  let w := match dst i with
    | some d => (s.consumeWb.writeReg d s.wbl.val).setBusy d false
    | none => s.consumeWb
  let h := { w with halted := decide (i = .halt) || s.halted }
  match instrClass i with
  | some c => h.countClass c
  | none => h

/-! ## `exec` in each stage -/

theorem exec_id (i : Instr) (s : State) (h : s.stage = .id) :
    exec i s = .next (if s.hazard (srcs i) then s.countDataStall else s.issued i) := by
  cases i <;>
    simp [exec, execAdd, execSub, execMul, execInc, execAnd, execOr, execNot, execXor, execLoad, execStore, execJmp,
      execBeqz, execUndef12, execUndef13, execUndef14, execHalt, silentOp, resultOp, h, State.checked, srcs] <;>
    first
      | (split <;> simp_all [State.issued, State.issueTo, State.setBusy, State.issue, operands, dst, isControl, instrClass,
          State.controlStall, State.countCtrlStall, State.x, State.hazard])
      | simp_all [State.issued, State.issue, operands, dst, isControl, instrClass, State.controlStall,
          State.countCtrlStall, State.stopFetch, State.hazard]

theorem exec_ex (i : Instr) (s : State) (h : s.stage = .ex) :
    exec i s = .next { s.toMem (result i s).1 (result i s).2 with exStalled := isControl i || s.exStalled } := by
  cases i <;>
    simp [exec, execAdd, execSub, execMul, execInc, execAnd, execOr, execNot, execXor, execLoad, execStore, execJmp,
      execBeqz, execUndef12, execUndef13, execUndef14, execHalt, silentOp, resultOp, h, result, isControl, instrClass,
      State.toMem, State.toMemControl, condNone, condZero, condAlways, aluAdd, aluSub, aluMul, aluInc, aluAnd, aluOr,
      aluNot, aluXor]

theorem exec_mem (i : Instr) (s : State) (h : s.stage = .mem) :
    exec i s = .next ((s.memActed i).toWb (s.memVal i)) := by
  cases i <;>
    simp [exec, execAdd, execSub, execMul, execInc, execAnd, execOr, execNot, execXor, execLoad, execStore, execJmp,
      execBeqz, execUndef12, execUndef13, execUndef14, execHalt, silentOp, resultOp, h, State.memActed, State.memVal]

theorem exec_wb (i : Instr) (s : State) (h : s.stage = .wb) : exec i s = .next (s.retired i) := by
  cases i <;>
    simp [exec, execAdd, execSub, execMul, execInc, execAnd, execOr, execNot, execXor, execLoad, execStore, execJmp,
      execBeqz, execUndef12, execUndef13, execUndef14, execHalt, silentOp, resultOp, h, State.retired, State.retireResult,
      dst, instrClass, State.countClass, State.setBusy, State.consumeWb]

/-- Every instruction answers a next state in every stage: the core raises no exception (R170) and no encoding is refused
(R72). -/
theorem exec_next (i : Instr) (s : State) : ∃ t, exec i s = .next t := by
  cases h : s.stage with
  | id => exact ⟨_, exec_id i s h⟩
  | ex => exact ⟨_, exec_ex i s h⟩
  | mem => exact ⟨_, exec_mem i s h⟩
  | wb => exact ⟨_, exec_wb i s h⟩

/-! ## The stage functions, by cases -/

theorem wbStage_cases (s : State) :
    ((s.wbOccupied = false ∨ s.wbStalled = true) ∧ wbStage s = .next s) ∨
    (s.wbOccupied = true ∧ s.wbStalled = false ∧
      wbStage s = .next ((s.atStage .wb).retired (decode s.wbl.ir))) := by
  cases h1 : s.wbOccupied <;> cases h2 : s.wbStalled <;> simp [wbStage, act, h1, h2, exec_wb _ (s.atStage .wb) rfl]

theorem memStage_cases (s : State) :
    ((s.memOccupied = false ∨ s.memStalled = true ∨ s.wbOccupied = true ∨ s.wbStalled = true) ∧ memStage s = .next s) ∨
    (s.memOccupied = true ∧ s.memStalled = false ∧ s.wbOccupied = false ∧ s.wbStalled = false ∧
      memStage s = .next (((s.atStage .mem).memActed (decode s.meml.ir)).toWb
        ((s.atStage .mem).memVal (decode s.meml.ir)))) := by
  cases h1 : s.memOccupied <;> cases h2 : s.memStalled <;> cases h3 : s.wbOccupied <;> cases h4 : s.wbStalled <;>
    simp [memStage, act, h1, h2, h3, h4, exec_mem _ (s.atStage .mem) rfl]

theorem exStage_cases (s : State) :
    ((s.exOccupied = false ∨ s.exStalled = true ∨ s.memOccupied = true ∨ s.memStalled = true) ∧ exStage s = .next s) ∨
    (s.exOccupied = true ∧ s.exStalled = false ∧ s.memOccupied = false ∧ s.memStalled = false ∧
      exStage s = .next { (s.atStage .ex).toMem (result (decode s.exl.ir) (s.atStage .ex)).1
          (result (decode s.exl.ir) (s.atStage .ex)).2 with
        exStalled := isControl (decode s.exl.ir) || s.exStalled }) := by
  cases h1 : s.exOccupied <;> cases h2 : s.exStalled <;> cases h3 : s.memOccupied <;> cases h4 : s.memStalled <;>
    simp [exStage, act, h1, h2, h3, h4, exec_ex _ (s.atStage .ex) rfl]

theorem idStage_cases (s : State) :
    ((s.idOccupied = false ∨ s.idStalled = true ∨ s.haltSeen = true ∨ s.exOccupied = true ∨ s.exStalled = true) ∧
      idStage s = .next s) ∨
    (s.idOccupied = true ∧ s.idStalled = false ∧ s.haltSeen = false ∧ s.exOccupied = false ∧ s.exStalled = false ∧
      ((s.hazard (srcs (decode s.idl.ir)) = true ∧ idStage s = .next (s.atStage .id).countDataStall) ∨
        (s.hazard (srcs (decode s.idl.ir)) = false ∧
          idStage s = .next ((s.atStage .id).issued (decode s.idl.ir))))) := by
  have hz : (s.atStage .id).hazard (srcs (decode s.idl.ir)) = s.hazard (srcs (decode s.idl.ir)) := rfl
  cases h1 : s.idOccupied <;> cases h2 : s.idStalled <;> cases h3 : s.haltSeen <;> cases h4 : s.exOccupied <;>
    cases h5 : s.exStalled <;> cases h6 : s.hazard (srcs (decode s.idl.ir)) <;>
    simp [idStage, act, h1, h2, h3, h4, h5, h6, hz, exec_id _ (s.atStage .id) rfl]

theorem ifStage_cases (s : State) :
    ((s.ifOccupied = false ∨ s.flushed = true ∨ s.idOccupied = true ∨ s.idStalled = true) ∧ ifStage s = s) ∨
    (s.ifOccupied = true ∧ s.flushed = false ∧ s.idOccupied = false ∧ s.idStalled = false ∧ ifStage s = s.fetch) := by
  cases h1 : s.ifOccupied <;> cases h2 : s.flushed <;> cases h3 : s.idOccupied <;> cases h4 : s.idStalled <;>
    simp [ifStage, h1, h2, h3, h4]

/-! ## A step -/

/-- A step that answers a next state is the five stage evaluations in the order of R80, from a state not halted. -/
theorem step_eq_next {s t : State} :
    step s = .next t ↔ s.halted = false ∧
      ∃ w m e d, wbStage s.rest = .next w ∧ memStage w = .next m ∧ exStage m = .next e ∧ idStage e = .next d ∧
        t = (ifStage d).countCycle.rest := by
  cases h : s.halted
  · simp only [step, guardedCycle, h, Bool.false_eq_true, if_false, cycle, andThen_eq_next, true_and]
    constructor
    · rintro ⟨w, hw, m, hm, e, he, d, hd, ht⟩
      exact ⟨w, m, e, d, hw, hm, he, hd, by simpa using ht.symm⟩
    · rintro ⟨w, m, e, d, hw, hm, he, hd, rfl⟩
      exact ⟨w, hw, m, hm, e, he, d, hd, rfl⟩
  · simp [step, guardedCycle, h]

end Sys2Proof.Machine
end

