-- ==== Sys2Proof/Laws/Safety.lean ====
section
/-! SUPPORT. The small lemmas of Safety.lean: how long an instruction waits, and the tally of a run. -/

namespace Sys2Proof.Machine

/-! ## Waiting (R105, R106) -/

theorem waitFor_of_free {s : State} {r : RegIdx} (h : s.isBusy r = false) : s.waitFor r = 0 := by simp [State.waitFor, h]

theorem waitFor_le_two (s : State) (r : RegIdx) : s.waitFor r ≤ 2 := by
  unfold State.waitFor
  split_ifs <;> omega

/-- A bound on the longest wait of a list of registers is one on each. -/
theorem foldr_waitFor_le {s : State} {l : List RegIdx} {n : Nat} :
    l.foldr (fun r m => max (s.waitFor r) m) 0 ≤ n ↔ ∀ r ∈ l, s.waitFor r ≤ n := by
  induction l with
  | nil => simp
  | cons r l ih => simp [ih]

theorem waitLeft_of_empty {s : State} (h : s.idOccupied = false) : s.waitLeft = 0 := by simp [State.waitLeft, h]

theorem waitLeft_le_iff {s : State} {n : Nat} :
    s.waitLeft ≤ n ↔ (s.idOccupied = true → ∀ r ∈ srcs s.idInstr, s.waitFor r ≤ n) := by
  cases h : s.idOccupied <;> simp [State.waitLeft, h, foldr_waitFor_le]

theorem waitLeft_le_two (s : State) : s.waitLeft ≤ 2 := waitLeft_le_iff.2 fun _ r _ => waitFor_le_two s r

/-- An instruction that cannot wait has no source register. -/
theorem srcs_of_not_canWait {i : Instr} (h : canWait i = false) : srcs i = [] := by
  cases i <;> simp_all [canWait, instrClass, srcs]

/-! ## The tally of a run -/

@[simp] theorem tally_zero (p : State → Bool) (s : State) : tally p 0 s = 0 := rfl

theorem tally_succ {p : State → Bool} {n : Nat} {s t : State} (h : step s = .next t) :
    tally p (n + 1) s = (p s).toNat + tally p n t := by simp [tally, h]

end Sys2Proof.Machine
end

