-- ==== Sys2Proof/Tests/Slice0.lean ====
section
/-! SUPPORT. The model's own tests: words written out from the encoding tables, single steps whose results are in the spec's own
test vectors (95_test_vectors.md, cited as V<section>#<row>), the checks of WellFormed.lean, and a witness for the hypotheses of
each statement. -/

namespace Sys2Proof.Tests

open Sys2Proof Sys2Proof.Machine

/-! ## Decoding: words written out bit by bit (30_encoding.md R62, R69) -/

-- {op 0000, dest 0011, src1 0001, src2 0010}
theorem test_decode_add : decode 0b0000_0011_0001_0010#16 = .add 3 1 2 := by decide
theorem test_decode_sub : decode 0b0001_0011_0001_0010#16 = .sub 3 1 2 := by decide
theorem test_decode_mul : decode 0b0010_0100_0010_0011#16 = .mul 4 2 3 := by decide
-- INC: ir[7:0] ignored
theorem test_decode_inc : decode 0b0011_0101_1111_1111#16 = .inc 5 := by decide
theorem test_decode_and : decode 0b0100_1111_0001_1110#16 = .and 15 1 14 := by decide
theorem test_decode_or : decode 0b0101_0011_0001_0010#16 = .or 3 1 2 := by decide
-- NOT: dest 0010, src 0001, ir[3:0] ignored
theorem test_decode_not : decode 0b0110_0010_0001_1111#16 = .not 2 1 := by decide
theorem test_decode_xor : decode 0b0111_0011_0001_0010#16 = .xor 3 1 2 := by decide
theorem test_decode_load : decode 0b1000_0001_0100_1111#16 = .load 1 4 15 := by decide
theorem test_decode_store : decode 0b1001_0010_0011_0001#16 = .store 2 3 1 := by decide
-- JMP: imm8 in ir[11:4], ir[3:0] ignored; BEQZ: condReg in ir[11:8], imm8 in ir[7:0]
theorem test_decode_jmp : decode 0b1010_1111_1110_1111#16 = .jmp 0xFE := by decide
theorem test_decode_beqz : decode 0b1011_0001_0111_1101#16 = .beqz 1 0x7D := by decide
theorem test_decode_undef12 : decode 0b1100_0001_0010_0011#16 = .undef12 := by decide
theorem test_decode_undef13 : decode 0b1101_1111_1111_1111#16 = .undef13 := by decide
theorem test_decode_undef14 : decode 0b1110_0000_0000_0000#16 = .undef14 := by decide
theorem test_decode_halt : decode 0b1111_1010_1011_1100#16 = .halt := by decide
-- R70: what unpopulated memory decodes to
theorem test_decode_zero : decode 0x0000#16 = .add 0 0 0 := by decide
-- R43: the byte at the lower address is the high half; the other order with IFETCH_BIG_ENDIAN false
theorem test_decodeBytes_big : decodeBytes {} [0x82, 0x30, 0xF0] = .ok (.load 2 3 0, [0xF0]) := by rfl
theorem test_decodeBytes_little : decodeBytes { ifetchBigEndian := false } [0x30, 0x82] = .ok (.load 2 3 0, []) := by rfl
theorem test_decodeBytes_truncated : decodeBytes {} [0x82] = .error .truncated := by rfl
-- R75: the assembler's column
theorem test_encode_not : encode (.not 2 1) = 0x6210#16 := by decide
theorem test_encode_jmp : encode (.jmp 0xFC) = 0xAFC0#16 := by decide
theorem test_table_word : decodeTableWord 16 0xB103 = some (.beqz 1 3) := by decide

/-! ## Well-formedness: each check refuses an ill-formed term (R193, D28; R68) -/

theorem test_image_ok : LaunchImage.wellFormed { regs := [7], imem := [0xF0, 0x00], dmem := [] } = true := by decide
theorem test_image_17_register_tokens : LaunchImage.wellFormed { regs := List.replicate 17 0 } = false := by decide
theorem test_image_257_imem_tokens : LaunchImage.wellFormed { imem := List.replicate 257 0 } = false := by
  simp only [LaunchImage.wellFormed, List.length_replicate]
  decide
theorem test_image_257_dmem_tokens : LaunchImage.wellFormed { dmem := List.replicate 257 0 } = false := by
  simp only [LaunchImage.wellFormed, List.length_replicate]
  decide
theorem test_word_with_ignored_bit : Word.canonical 0x35FF#16 = false := by decide

/-! ## Single steps -/

/-- One step, then a look at the result. -/
def after {α : Type} (s : State) (f : State → α) : Option α :=
  match step s with
  | .next t => some (f t)
  | _ => none

/-- Reset with some registers. -/
def withRegs (l : List (RegIdx × Byte)) : State := l.foldl (fun s p => s.regLoad p.1 p.2) State.reset

/-- The word `ir`, from address `pc`, in `IDL`, with `PC` past it. -/
def inId (s : State) (ir : Word) (pc : Byte := 0) : State :=
  { s with idOccupied := true, idl := { ir := ir, pc := pc }, pc := pc + 2 }

/-- The word `ir` in `EXL` with operand values, `PC` past it; the control stall is held for a JMP or BEQZ. -/
def inEx (s : State) (ir : Word) (a b : Byte) (pc : Byte := 0) : State :=
  { s with exOccupied := true, exl := { ir := ir, pc := pc, a := a, b := b }, pc := pc + 2, idStalled := isControl (decode ir) }

/-- The word `ir` in `MEML` with the value EX computed, `PC` past it. -/
def inMem (s : State) (ir : Word) (alu : Byte) (pc : Byte := 0) : State :=
  { s with
    memOccupied := true, meml := { ir := ir, pc := pc, alu := alu, cond := false }, pc := pc + 2
    idStalled := isControl (decode ir), exStalled := isControl (decode ir) }

/-- The word `ir` in `WBL` with the value to write. -/
def inWb (s : State) (ir : Word) (val : Byte) : State :=
  { s with wbOccupied := true, wbl := { ir := ir, pc := 0, val := val } }

-- EX results: V2.1
theorem test_add_wraps : after (inEx .reset 0x0312#16 0x80 0x80) (·.meml.alu) = some 0x00 := by decide    -- V2.1#3
theorem test_sub_order : after (inEx .reset 0x1312#16 0x12 0x34) (·.meml.alu) = some 0xDE := by decide    -- V2.1#9
theorem test_mul_low_byte : after (inEx .reset 0x2423#16 0xFF 0xFF) (·.meml.alu) = some 0x01 := by decide -- V2.1#13
theorem test_inc_wraps : after (inEx .reset 0x3500#16 0xFF 0) (·.meml.alu) = some 0x00 := by decide       -- V2.1#16
theorem test_and : after (inEx .reset 0x4312#16 0xF0 0x3C) (·.meml.alu) = some 0x30 := by decide          -- V2.1#20
theorem test_or : after (inEx .reset 0x5312#16 0xF0 0x3C) (·.meml.alu) = some 0xFC := by decide           -- V2.1#22
theorem test_not : after (inEx .reset 0x6210#16 0xA5 0) (·.meml.alu) = some 0x5A := by decide             -- V2.1#24
theorem test_xor : after (inEx .reset 0x7312#16 0xF0 0x3C) (·.meml.alu) = some 0xCC := by decide          -- V2.1#28
-- Operands are read at issue from the fields R91 names: SUB's minuend is ir[7:4]
theorem test_sub_operands :
    after (inId (withRegs [(1, 0x34), (2, 0x12)]) 0x1312#16) (fun t => (t.exl.a, t.exl.b, t.isBusy 3)) =
      some (0x34, 0x12, true) := by decide
-- Effective addresses: V2.2#4 wraps, V2.2#3 is signed
theorem test_load_address_wraps : after (inEx .reset 0x812F#16 0xF8 0) (·.meml.alu) = some 0x07 := by decide
theorem test_load_offset_signed :
    after { inEx .reset 0x812F#16 0x10 0 with cfg := { imm4Signed := true } } (·.meml.alu) = some 0x0F := by decide
-- V2.2#9; R143: the value register is read in MEM, after that cycle's WB (V2.4#12)
theorem test_store_writes : after (inMem (withRegs [(1, 0xAB)]) 0x9120#16 0x20) (·.memRead 0x20) = some 0xAB := by decide
theorem test_store_sees_writeback :
    after (inWb (inMem (withRegs [(1, 0x03)]) 0x9100#16 0x00) 0x5144#16 0x40) (·.memRead 0x00) = some 0x40 := by decide
theorem test_load_reads :
    after (inMem (State.reset.dmemLoad 0x1F 0x33) 0x812F#16 0x1F) (·.wbl.val) = some 0x33 := by decide  -- V2.2#2
-- Branches: V2.3#6, #8, #9, and the resolution of #1, #2
theorem test_jmp_backwards : after (inEx .reset 0xAFEF#16 0 0 0x10) (·.meml.alu) = some 0x0E := by decide
theorem test_beqz_taken : after (inEx .reset 0xB103#16 0x00 0) (·.meml.alu) = some 0x08 := by decide
theorem test_beqz_not_taken : after (inEx .reset 0xB103#16 0x80 0) (·.meml.alu) = some 0x02 := by decide
theorem test_jmp_flushes :
    after (inMem .reset 0xA010#16 0x04) (fun t => (t.pc, t.idOccupied, t.idStalled, t.wbOccupied)) =
      some (0x04, false, false, true) := by decide
theorem test_jmp_matches :
    after (inMem .reset 0xA000#16 0x02) (fun t => (t.pc, t.idOccupied, t.idl.pc, t.idStalled)) =
      some (0x04, true, 0x02, false) := by decide
-- HALT and the undefined opcodes: V2.3 second table
theorem test_halt_retires : after (inWb .reset 0xFABC#16 0) (fun t => (t.halted, t.stats.nHalt)) = some (true, 1) := by decide
theorem test_halt_stops_fetch :
    after (inId .reset 0xF000#16) (fun t => (t.haltSeen, t.ifOccupied, t.idOccupied, t.pc)) = some (true, false, false, 0x02) := by
  decide
theorem test_undef12_marks_nothing : after (inId .reset 0xC1FF#16) (fun t => (t.isBusy 1, t.exOccupied)) = some (false, true) := by
  decide
theorem test_undef13_counts_nothing : after (inWb .reset 0xD2FF#16 0) (fun t => (t.x 2, t.stats.nTotal)) = some (0, 0) := by decide
theorem test_undef14_no_alu_effect : after (inEx .reset 0xE3FF#16 1 2) (fun t => (t.meml.alu, t.meml.cond)) = some (0, false) := by
  decide
-- Retirement: register 0 keeps its value, its busy bit is cleared (V2.1#5, V2.4#7); NOT counts as logical
theorem test_write_r0_ignored :
    after (inWb ((withRegs [(0, 7)]).setBusy 0 true) 0x0012#16 3) (fun t => (t.x 0, t.isBusy 0)) = some (7, false) := by decide
theorem test_not_is_logical : after (inWb .reset 0x6210#16 0xF0) (fun t => (t.x 2, t.stats.nLogic)) = some (0xF0, 1) := by decide
-- Hazards: NOT does not check its ignored field (V2.1#26); STORE checks its value register; one stall for two busy sources
theorem test_not_ignores_r15 : after (inId (State.reset.setBusy 15 true) 0x621F#16) (·.exOccupied) = some true := by decide
theorem test_store_waits_for_value :
    after (inId (State.reset.setBusy 2 true) 0x9230#16) (fun t => (t.exOccupied, t.stats.dataStalls, t.pc)) =
      some (false, 1, 0x02) := by decide
-- Fetch: PC wraps from 0xFE to 0x00 (R14); unpopulated memory is ADD r0, r0, r0
theorem test_fetch_wraps : after { State.reset with pc := 0xFE } (fun t => (t.pc, t.idl.pc, t.idInstr)) = some (0, 0xFE, .add 0 0 0) := by
  decide
theorem test_halted_stops : step { State.reset with halted := true } = .fault .terminal := by rfl
theorem test_withFetchWord :
    after (State.reset.withFetchWord 16 0xA030) (fun t => (t.exl.ir, t.idStalled, t.stats.ctrlStalls)) =
      some (0xA030#16, true, 2) := by decide

/-! ## Witnesses: states that meet the hypotheses of the statements of Obligations.lean -/

/-- The state a step answers, for a state that is not halted. -/
def nextOf (s : State) : State :=
  match step s with
  | .next t => t
  | _ => s

theorem witness_IgnoredBitsTakeNoPart :
    Word.op 0x35FF#16 = Word.op 0x3500#16 ∧ 0x35FF#16 &&& fieldMask 0x35FF#16 = 0x3500#16 &&& fieldMask 0x3500#16 := by decide

theorem witness_LaunchStateFollowsTheTable :
    LaunchImage.wellFormed { regs := [7, 1], imem := [0x01, 0x11, 0xF0, 0x00], dmem := [0x77] } = true := by decide

theorem witness_HostReadsAfterTheHaltOnly_halted : (nextOf (inWb .reset 0xF000#16 0)).halted = true := by decide
theorem witness_HostReadsAfterTheHaltOnly_running : State.reset.halted = false := by decide
theorem witness_HostReadsAfterTheHaltOnly_surplus : LaunchImage.wellFormed { regs := List.replicate 17 0 } = false := by decide

theorem witness_StepRunsTheDecodedInstructions_wb :
    let s := inWb .reset 0x0312#16 5
    s.halted = false ∧ s.wbOccupied = true ∧ s.wbStalled = false := by decide
theorem witness_StepRunsTheDecodedInstructions_mem :
    let s := inMem .reset 0x9120#16 0x20
    s.memOccupied = true ∧ s.memStalled = false ∧ s.wbOccupied = false ∧ s.wbStalled = false := by decide
theorem witness_StepRunsTheDecodedInstructions_ex :
    let s := inEx .reset 0x0312#16 1 2
    s.exOccupied = true ∧ s.exStalled = false ∧ s.memOccupied = false ∧ s.memStalled = false := by decide
theorem witness_StepRunsTheDecodedInstructions_id :
    let s := inId .reset 0x0312#16
    s.idOccupied = true ∧ s.idStalled = false ∧ s.haltSeen = false ∧ s.exOccupied = false ∧ s.exStalled = false := by decide
theorem witness_StepRunsTheDecodedInstructions_word :
    Memory.wf ({ State.reset with imem := [(0, 0x31), (255, 0xF0)] } : State).imem = true ∧ (0xFFFF : Nat) < 65536 := by decide

theorem witness_OnlyTheHaltedStateHasNoSuccessor :
    State.reset.halted = false ∧ ({ State.reset with halted := true } : State).halted = true := by decide

-- ArithmeticInstructionsComplete, LogicalInstructionsComplete, LoadCompletes, StoreCompletes, ControlInstructionsComplete
theorem witness_completions :
    let s := inId (withRegs [(1, 0x80), (2, 0x80)]) 0x0312#16
    MemoryInv s ∧ s.isBusy 1 = false ∧ s.isBusy 2 = false := by decide

theorem witness_BusySourceHoldsTheInstruction :
    let s := (inId (State.reset.setBusy 2 true) 0x9230#16).atStage .id
    s.stage = .id ∧ 2 ∈ srcs (.store 2 3 0) ∧ s.isBusy 2 = true := by decide

theorem witness_EffectiveAddressAddsTheOffset :
    Config.default.imm4Signed = false ∧ ({ imm4Signed := true } : Config).imm4Signed = true := by decide

theorem witness_BranchTargetWrapsModulo256 : (0xFC : Byte).getLsbD 0 = (0x02 : Byte).getLsbD 0 := by decide

-- InstructionStoreNeverChanges, RegisterZeroKeepsItsValue (one step)
theorem witness_a_step : step State.reset = .next (nextOf State.reset) ∧
    Host.Core.run Sys2Proof.core 1 State.reset = .next (nextOf State.reset) := by constructor <;> rfl

theorem witness_OnlyRetirementWritesARegister :
    let s := inWb .reset 0x0312#16 5
    step s = .next (nextOf s) ∧ (nextOf s).x 3 ≠ s.x 3 := by exact ⟨rfl, by decide⟩

theorem witness_BusyBitsFollowIssueAndRetire_set :
    let s := inId .reset 0x0312#16
    step s = .next (nextOf s) ∧ s.isBusy 3 = false ∧ (nextOf s).isBusy 3 = true := by exact ⟨rfl, by decide, by decide⟩
theorem witness_BusyBitsFollowIssueAndRetire_clear :
    let s := inWb (State.reset.setBusy 3 true) 0x0312#16 5
    step s = .next (nextOf s) ∧ s.isBusy 3 = true ∧ (nextOf s).isBusy 3 = false := by exact ⟨rfl, by decide, by decide⟩

theorem witness_OnlyAStoreWritesTheDataStore :
    let s := inMem (withRegs [(1, 0xAB)]) 0x9120#16 0x20
    MemoryInv s ∧ step s = .next (nextOf s) ∧ (nextOf s).memRead 0x20 ≠ s.memRead 0x20 := by
  exact ⟨by decide, rfl, by decide⟩

-- OnlyFetchAndFlushWriteThePc: all three clauses
theorem witness_OnlyFetchAndFlushWriteThePc :
    (nextOf (inId (State.reset.setBusy 2 true) 0x9230#16)).pc = 0x02 ∧ (nextOf State.reset).pc = 0x02 ∧
    (nextOf (inMem .reset 0xA010#16 0x04)).pc = 0x04 := by decide

theorem witness_HaltFlagsAreNeverCleared :
    let s := inId .reset 0xF000#16
    step s = .next (nextOf s) ∧ s.haltSeen = false ∧ (nextOf s).haltSeen = true ∧
    step (inWb .reset 0xF000#16 0) = .next (nextOf (inWb .reset 0xF000#16 0)) ∧
    (nextOf (inWb .reset 0xF000#16 0)).halted = true := by exact ⟨rfl, by decide, by decide, rfl, by decide⟩

theorem witness_CountersOnlyCountUp :
    let s := inWb (inId (State.reset.setBusy 2 true) 0x9230#16) 0x6310#16 1
    s.cfg.ctrWidth = none ∧ step s = .next (nextOf s) ∧ (nextOf s).stats.dataStalls = s.stats.dataStalls + 1 ∧
    (nextOf s).stats.nLogic = 1 := by exact ⟨rfl, rfl, by decide, by decide⟩

theorem witness_StoreSeesSameCycleWriteback :
    let s := inWb (inMem (withRegs [(1, 0x03)]) 0x9100#16 0x00) 0x5144#16 0x40
    MemoryInv s ∧ s.halted = false ∧ s.memOccupied = true ∧ s.memStalled = false ∧ s.wbStalled = false ∧
    s.memInstr = .store 1 0 0 ∧ s.wbOccupied = true ∧ dst s.wbInstr = some 1 := by decide

/-- V2.4#8 in its fifth cycle: ADD r1 retires, OR r1 is in `MEML`, ADD r5, r1, r1 waits. -/
def staleRead : State :=
  { inId (inMem (inWb ((State.reset.setBusy 1 true)) 0x0123#16 3) 0x5144#16 0x40 2) 0x0511#16 4 with pc := 6 }

theorem witness_ConsumerIssuesInTheRetireCycle :
    PipelineInv staleRead ∧ staleRead.idOccupied = true ∧ staleRead.wbOccupied = true ∧ dst staleRead.wbInstr = some 1 ∧
    (∀ q ∈ srcs staleRead.idInstr, q = 1 ∨ staleRead.isBusy q = false) ∧ (nextOf staleRead).exl.a = 3 :=
  ⟨by constructor <;> decide, by decide, by decide, by decide, by decide, by decide⟩

/-- V2.4#15: a STORE in `MEML`, a LOAD from the same address behind it. -/
def storeThenLoad : State :=
  inEx (inMem (withRegs [(1, 0xAB), (2, 0xFE)]) 0x9123#16 0x01 0) 0x8323#16 0xFE 0 2

theorem witness_LoadBehindStoreReadsTheStoredByte :
    PipelineInv { storeThenLoad with busy := storeThenLoad.busy.set 3 true } ∧ MemoryInv storeThenLoad ∧
    storeThenLoad.memOccupied = true ∧ storeThenLoad.memInstr = .store 1 2 3 ∧ storeThenLoad.exOccupied = true ∧
    storeThenLoad.exInstr = .load 3 2 3 ∧
    effectiveAddress storeThenLoad.cfg storeThenLoad.exl.a 3 = storeThenLoad.meml.alu :=
  ⟨by constructor <;> decide, by decide, by decide, by decide, by decide, by decide, by decide⟩

-- EveryIssuedInstructionAdvances, DataStallsLastAtMostTwoCycles: INC r1 just issued, ADD r2, r1, r1 behind it (V2.4#1)
theorem witness_stalled_pipeline :
    let s := { inId (inEx (State.reset.setBusy 1 true) 0x3100#16 1 0 0) 0x0211#16 2 with pc := 4 }
    PipelineInv s ∧ s.cfg.ctrWidth = none ∧ s.idOccupied = true ∧ step s = .next (nextOf s) :=
  ⟨by constructor <;> decide, rfl, by decide, rfl⟩

theorem witness_ControlInstructionResolvesInTwoCycles_match :
    let s := inEx .reset 0xB100#16 0 0
    PipelineInv s ∧ s.ctrlInEx ∧ beqzTarget s.pc s.exl.a 0x00 = s.pc := ⟨by constructor <;> decide, by decide, by decide⟩
theorem witness_ControlInstructionResolvesInTwoCycles_flush :
    let s := inEx .reset 0xA7F0#16 0 0
    PipelineInv s ∧ s.ctrlInEx ∧ branchTarget s.pc 0x7F ≠ s.pc := ⟨by constructor <;> decide, by decide, by decide⟩

theorem witness_HaltLeavesThePipelineEmpty :
    let s := { inWb .reset 0xF000#16 0 with haltSeen := true, ifOccupied := false, pc := 2 }
    PipelineInv s ∧ step s = .next (nextOf s) ∧ (nextOf s).halted = true :=
  ⟨by constructor <;> decide, rfl, by decide⟩

-- The Steps… statements: a step from a state that meets each invariant
theorem witness_invariants_and_a_step :
    PipelineInv State.reset ∧ MemoryInv State.reset ∧ EvenPcInv State.reset ∧ FetchedInv State.reset ∧
    step State.reset = .next (nextOf State.reset) :=
  ⟨by constructor <;> decide, by decide, by decide, by decide, rfl⟩

theorem witness_LaunchMeetsTheInvariants :
    ∃ s, State.launch Config.default { regs := [7], imem := [0xF0] } = some s := ⟨_, rfl⟩

-- ControlStallEmptiesExecuteAndMemory: a JMP issues in the second cycle
theorem witness_control_stall_is_reached :
    ∃ t, ReachedFrom Config.default { imem := [0xA0] } 2 t ∧ t.idStalled = true :=
  ⟨nextOf (nextOf { State.reset with imem := [(0, 0xA0)] }), ⟨_, rfl, rfl⟩, by decide⟩

/-- Reset with a program, and the state in which its first instruction leaves the machine when it passes alone. -/
def withProgram (imem : Memory) : State := { State.reset with imem := imem }
def aloneOf (s : State) : State :=
  match runAlone s.nextInstr s.fetch with
  | .next u => u
  | _ => s

-- One witness for each clause: a plain instruction, a JMP that matches, a JMP that flushes, a HALT
theorem witness_FiveCyclesRunTheNextInstruction :
    PipelineInv State.reset ∧ State.reset.drained ∧ State.reset.ifOccupied = true ∧
    isControl State.reset.nextInstr = false ∧ State.reset.nextInstr ≠ .halt :=
  ⟨by constructor <;> decide, by decide, by decide, by decide, by decide⟩
theorem witness_FiveCyclesRunTheNextInstruction_match :
    let s := withProgram [(0, 0xA0)]
    PipelineInv s ∧ s.drained ∧ s.ifOccupied = true ∧ isControl s.nextInstr = true ∧ (aloneOf s).pc = s.pc + 2 :=
  ⟨by constructor <;> decide, by decide, by decide, by decide, by decide⟩
theorem witness_FiveCyclesRunTheNextInstruction_flush :
    let s := withProgram [(0, 0xA0), (1, 0x10)]
    PipelineInv s ∧ s.drained ∧ s.ifOccupied = true ∧ isControl s.nextInstr = true ∧ (aloneOf s).pc = 4 :=
  ⟨by constructor <;> decide, by decide, by decide, by decide, by decide⟩
theorem witness_FiveCyclesRunTheNextInstruction_halt :
    let s := withProgram [(0, 0xF0)]
    PipelineInv s ∧ s.drained ∧ s.ifOccupied = true ∧ s.nextInstr = .halt :=
  ⟨by constructor <;> decide, by decide, by decide, by decide⟩

-- INC r1 issued in cycle 2, ADD r2, r1, r1 fetched behind it: two data stalls still to come
theorem witness_StepsKeepTheCounterInvariant :
    let s := { inId (inEx (State.reset.setBusy 1 true) 0x3100#16 1 0 0) 0x0211#16 2 with
      pc := 4, stats := { State.reset.stats with cycles := 2 } }
    s.cfg.ctrWidth = none ∧ PipelineInv s ∧ CounterInv s ∧ s.waitLeft = 2 ∧ step s = .next (nextOf s) :=
  ⟨rfl, by constructor <;> decide, by constructor <;> decide, by decide, rfl⟩

-- CounterRelationsAtTheHalt, ExactCycleCountAtTheHalt. V2.3, second table, row 1: HALT alone, 5 cycles
theorem witness_CounterRelationsAtTheHalt :
    ∃ t, Config.default.ctrWidth = none ∧ ReachedFrom Config.default { imem := [0xF0] } 5 t ∧ t.halted = true :=
  ⟨nextOf (nextOf (nextOf (nextOf (nextOf { State.reset with imem := [(0, 0xF0)] })))), rfl, ⟨_, rfl, rfl⟩, by decide⟩

/-- INC r1 ; HALT. -/
def incHalt : State := { State.reset with imem := [(0, 0x31), (2, 0xF0)] }

/-- The state after `n` steps of one-at-a-time running. -/
def incHaltAfter (n : Nat) : State :=
  match seqRun n incHalt with
  | .next t => t
  | _ => incHalt

theorem incHalt_seqRun (n : Nat) : seqRun (n + 2) incHalt = seqRun n (incHaltAfter 2) := by rfl

theorem seqRun_halted (n : Nat) (s t : State) (hs : s.halted = true) (h : seqRun n s = .next t) : t.halted = true := by
  cases n with
  | zero => simp only [seqRun, Host.Outcome.next.injEq] at h; rw [← h, hs]
  | succ n => simp [seqRun, seqStep, hs, andThen] at h

theorem witness_NoOverlappingWriters : NoOverlappingWriters incHalt := by
  intro k d t u r hd hk hu ht hu' hdt hdu
  obtain ⟨m, hm⟩ | hm : (∃ m, k + d = m + 2) ∨ k + d = 1 := by
    by_cases h : k + d = 1
    · exact .inr h
    · exact .inl ⟨k + d - 2, by omega⟩
  · rw [hm, incHalt_seqRun] at hu
    rw [seqRun_halted m (incHaltAfter 2) u (by decide) hu] at hu'
    cases hu'
  · rw [hm, show seqRun 1 incHalt = .next (incHaltAfter 1) from rfl, Host.Outcome.next.injEq] at hu
    rw [← hu, show dst (incHaltAfter 1).nextInstr = none by decide] at hdu
    cases hdu

theorem witness_PipelineRefinesOneAtATime :
    PipelineInv incHalt ∧ MemoryInv incHalt ∧ incHalt.drained ∧ incHalt.ifOccupied = true ∧ NoOverlappingWriters incHalt ∧
    seqRun 2 incHalt = .next (incHaltAfter 2) ∧ (incHaltAfter 2).halted = true ∧ (incHaltAfter 2).x 1 = 1 :=
  ⟨by constructor <;> decide, by decide, by decide, by decide, witness_NoOverlappingWriters, rfl, by decide, by decide⟩

end Sys2Proof.Tests
end

/-! SUPPORT. What a stage function that answers a next state has done: the cases of Laws/Pipeline.lean read as an inversion of
`xxStage s = .next t`, and for each stage its frame, one equation that lists the fields it can change. -/

namespace Sys2Proof.Machine

open Sys2Proof.Claims

@[simp] theorem atStage_x (s : State) (st : Stage) (r : RegIdx) : (s.atStage st).x r = s.x r := rfl
@[simp] theorem atStage_isBusy (s : State) (st : Stage) (r : RegIdx) : (s.atStage st).isBusy r = s.isBusy r := rfl

/-! ## WB -/

/-- What a retirement changes and what it leaves unchanged (R98, R99). -/
theorem retired_frame (s : State) (i : Instr) : s.retired i = { s with
    regs := (s.retired i).regs
    busy := (s.retired i).busy
    wbOccupied := false
    halted := decide (i = .halt) || s.halted
    stats := counted s.cfg s.stats (instrClass i) } := by
  have hwrite : ∀ (u : State) (d : RegIdx) (v : Byte), u.writeReg d v = { u with regs := (u.writeReg d v).regs } := by
    intro u d v
    by_cases hd : d = 0 <;> simp [State.writeReg, hd]
  rcases hc : instrClass i with _ | c <;> rcases hd : dst i with _ | d
  · simp [State.retired, hc, hd, State.consumeWb, counted]
  · simp only [State.retired, hc, hd, counted]; rw [hwrite]; rfl
  · cases c <;> simp [State.retired, hc, hd, State.consumeWb, State.countClass, counted]
  · simp only [State.retired, hc, hd]; rw [hwrite]; cases c <;> rfl

theorem retired_x (s : State) (i : Instr) (r : RegIdx) :
    (s.retired i).x r = if dst i = some r ∧ r ≠ 0 then s.wbl.val else s.x r := by
  have hregs : (s.retired i).x r = (match dst i with | some d => s.writeReg d s.wbl.val | none => s).x r := by
    rcases hc : instrClass i <;> rcases hd : dst i <;> simp [State.retired, hc, hd, State.x]
  rw [hregs]
  rcases hd : dst i with _ | d
  · simp
  · by_cases hdr : d = r
    · subst hdr; simp [x_writeReg]
    · simp [x_writeReg, hdr]

theorem retired_isBusy (s : State) (i : Instr) (r : RegIdx) :
    (s.retired i).isBusy r = if dst i = some r then false else s.isBusy r := by
  rcases hd : dst i with _ | d
  · rcases hc : instrClass i <;> simp [State.retired, hc, hd, State.isBusy]
  · have hbusy : (s.retired i).isBusy r = (s.setBusy d false).isBusy r := by
      rcases hc : instrClass i <;> simp [State.retired, hc, hd, State.isBusy]
    simp [hbusy, isBusy_setBusy]

theorem retires_iff (s : State) : s.retires = true ↔ s.wbOccupied = true ∧ s.wbStalled = false := by simp [State.retires]

theorem wbStage_inv {s t : State} (h : wbStage s = .next t) :
    (s.retires = false ∧ t = s) ∨ (s.retires = true ∧ t = (s.atStage .wb).retired s.wbInstr) := by
  rcases wbStage_cases s with ⟨hidle, h'⟩ | ⟨hocc, hst, h'⟩ <;> rw [h'] at h <;> cases h
  · exact .inl ⟨by rcases hidle with hi | hi <;> simp [State.retires, hi], rfl⟩
  · exact .inr ⟨(retires_iff s).2 ⟨hocc, hst⟩, rfl⟩

theorem wbStage_frame {s t : State} (h : wbStage s = .next t) : t = { s with
    regs := t.regs, busy := t.busy, wbOccupied := t.wbOccupied, halted := t.halted, stats := t.stats, stage := t.stage } := by
  rcases wbStage_inv h with ⟨-, rfl⟩ | ⟨-, rfl⟩
  · rfl
  · rw [retired_frame]; rfl

theorem wbStage_x {s t : State} (h : wbStage s = .next t) (r : RegIdx) :
    t.x r = if s.retires = true ∧ dst s.wbInstr = some r ∧ r ≠ 0 then s.wbl.val else s.x r := by
  rcases wbStage_inv h with ⟨hr, rfl⟩ | ⟨hr, rfl⟩
  · simp [hr]
  · simp [hr, retired_x]

theorem wbStage_isBusy {s t : State} (h : wbStage s = .next t) (r : RegIdx) :
    t.isBusy r = if s.retires = true ∧ dst s.wbInstr = some r then false else s.isBusy r := by
  rcases wbStage_inv h with ⟨hr, rfl⟩ | ⟨hr, rfl⟩
  · simp [hr]
  · simp [hr, retired_isBusy]

theorem isBusy_of_wbStage {s t : State} (h : wbStage s = .next t) {r : RegIdx} (ht : t.isBusy r = true) :
    s.isBusy r = true := by
  rw [wbStage_isBusy h] at ht
  split at ht
  · cases ht
  · exact ht

theorem wbStage_halted {s t : State} (h : wbStage s = .next t) :
    t.halted = (s.halted || s.retires && decide (s.wbInstr = .halt)) := by
  rcases wbStage_inv h with ⟨hr, rfl⟩ | ⟨hr, rfl⟩
  · simp [hr]
  · rw [retired_frame]; simp [hr, Bool.or_comm]

theorem wbStage_stats {s t : State} (h : wbStage s = .next t) :
    t.stats = if s.retires = true then counted s.cfg s.stats (instrClass s.wbInstr) else s.stats := by
  rcases wbStage_inv h with ⟨hr, rfl⟩ | ⟨hr, rfl⟩
  · simp [hr]
  · rw [retired_frame]; simp [hr]

theorem wbStage_wbOccupied {s t : State} (h : wbStage s = .next t) :
    t.wbOccupied = (s.wbOccupied && s.wbStalled) := by
  rcases wbStage_inv h with ⟨hr, rfl⟩ | ⟨hr, rfl⟩
  · revert hr; cases h1 : t.wbOccupied <;> cases h2 : t.wbStalled <;> simp [State.retires, h1, h2]
  · rw [retired_frame]; simp [((retires_iff s).1 hr).2]

/-! ## The counters over WB -/

/-- With unbounded counters a retirement adds one to the counter of its class and nothing to another class's. -/
theorem count_counted {cfg : Config} (hcfg : cfg.ctrWidth = none) (t : Stats) (o : Option InstrClass) (c : InstrClass) :
    count (counted cfg t o) c = count t c + if o = some c then 1 else 0 := by
  rcases o with _ | k
  · rfl
  · cases k <;> cases c <;> simp [counted, count, countUp_none hcfg]

/-- A retirement counts no cycle and no stall. -/
theorem counted_keeps (cfg : Config) (t : Stats) (o : Option InstrClass) :
    (counted cfg t o).cycles = t.cycles ∧ (counted cfg t o).dataStalls = t.dataStalls ∧
    (counted cfg t o).ctrlStalls = t.ctrlStalls := by
  rcases o with _ | k
  · exact ⟨rfl, rfl, rfl⟩
  · cases k <;> exact ⟨rfl, rfl, rfl⟩

/-- What WB adds to the counters, unbounded. -/
theorem wbStage_counts {s w : State} (hcfg : s.cfg.ctrWidth = none) (hw : wbStage s = .next w) :
    (∀ c, count w.stats c = count s.stats c +
      if s.wbOccupied = true ∧ s.wbStalled = false ∧ instrClass s.wbInstr = some c then 1 else 0) ∧
    w.stats.cycles = s.stats.cycles ∧ w.stats.dataStalls = s.stats.dataStalls ∧ w.stats.ctrlStalls = s.stats.ctrlStalls := by
  rw [wbStage_stats hw]
  by_cases hr : s.retires = true
  · obtain ⟨hocc, hst⟩ := (retires_iff s).1 hr
    exact ⟨fun c => by simp [hr, hocc, hst, count_counted hcfg], by simpa [hr] using counted_keeps _ _ _⟩
  · have hno : ∀ c, ¬ (s.wbOccupied = true ∧ s.wbStalled = false ∧ instrClass s.wbInstr = some c) := fun c hc =>
      hr ((retires_iff s).2 ⟨hc.1, hc.2.1⟩)
    exact ⟨fun c => by simp [hr, hno c], by simp [hr]⟩

/-! ## MEM -/

/-- What MEM does before its deposit: nothing but the consumption of `MEML`; a STORE's write; or the resolution of a JMP or BEQZ,
by a match or by a flush. -/
theorem memActed_cases (s : State) (i : Instr) :
    (isControl i = false ∧ (∀ v b imm4, i ≠ .store v b imm4) ∧ s.memActed i = s.consumeMem) ∨
    (∃ v b imm4, i = .store v b imm4 ∧ s.memActed i = s.consumeMem.memWrite s.meml.alu (s.x v)) ∨
    (isControl i = true ∧ s.meml.alu = s.pc ∧ s.memActed i = s.consumeMem.resolveMatch) ∨
    (isControl i = true ∧ s.meml.alu ≠ s.pc ∧ s.memActed i = s.consumeMem.flush s.meml.alu) := by
  have hresolve : (s.meml.alu = s.pc ∧ s.consumeMem.resolve s.meml.alu = s.consumeMem.resolveMatch) ∨
      (s.meml.alu ≠ s.pc ∧ s.consumeMem.resolve s.meml.alu = s.consumeMem.flush s.meml.alu) := by
    by_cases hpc : s.meml.alu = s.pc
    · exact .inl ⟨hpc, resolve_match _ hpc⟩
    · exact .inr ⟨hpc, resolve_differ _ hpc⟩
  cases i with
  | store v b imm4 => exact .inr (.inl ⟨v, b, imm4, rfl, rfl⟩)
  | jmp imm8 => exact .inr (.inr (hresolve.imp (⟨rfl, ·⟩) (⟨rfl, ·⟩)))
  | beqz c imm8 => exact .inr (.inr (hresolve.imp (⟨rfl, ·⟩) (⟨rfl, ·⟩)))
  | _ => exact .inl ⟨rfl, fun _ _ _ => nofun, rfl⟩

theorem memStage_inv {s t : State} (h : memStage s = .next t) :
    ((s.memOccupied = false ∨ s.memStalled = true ∨ s.wbOccupied = true ∨ s.wbStalled = true) ∧ t = s) ∨
    (s.memOccupied = true ∧ s.memStalled = false ∧ s.wbOccupied = false ∧ s.wbStalled = false ∧
      t = ((s.atStage .mem).memActed s.memInstr).toWb ((s.atStage .mem).memVal s.memInstr)) := by
  rcases memStage_cases s with ⟨hidle, h'⟩ | ⟨h1, h2, h3, h4, h'⟩ <;> rw [h'] at h <;> cases h
  · exact .inl ⟨hidle, rfl⟩
  · exact .inr ⟨h1, h2, h3, h4, rfl⟩

theorem memStage_frame {s t : State} (h : memStage s = .next t) : t = { s with
    pc := t.pc, dmem := t.dmem, idOccupied := t.idOccupied, exOccupied := t.exOccupied, memOccupied := t.memOccupied
    wbOccupied := t.wbOccupied, idStalled := t.idStalled, exStalled := t.exStalled, memStalled := t.memStalled
    wbStalled := t.wbStalled, wbl := t.wbl, flushed := t.flushed, stage := t.stage } := by
  rcases memStage_inv h with ⟨-, rfl⟩ | ⟨-, -, -, -, rfl⟩
  · rfl
  · rcases memActed_cases (s.atStage .mem) s.memInstr with ⟨-, -, ha⟩ | ⟨_, _, _, -, ha⟩ | ⟨-, -, ha⟩ | ⟨-, -, ha⟩ <;>
      rw [ha] <;> rfl

/-- MEM writes `PC` only by a flush, which also empties `IDL` and `EXL` (R97). -/
theorem memStage_pc {s t : State} (h : memStage s = .next t) :
    (t.pc = s.pc ∧ t.flushed = s.flushed ∧ t.idOccupied = s.idOccupied ∧ t.exOccupied = s.exOccupied) ∨
    (s.ctrlInMem ∧ t.pc = s.meml.alu ∧ t.flushed = true ∧ t.idOccupied = false ∧ t.exOccupied = false) := by
  rcases memStage_inv h with ⟨-, rfl⟩ | ⟨hocc, -, -, -, rfl⟩
  · exact .inl ⟨rfl, rfl, rfl, rfl⟩
  · rcases memActed_cases (s.atStage .mem) s.memInstr with ⟨-, -, ha⟩ | ⟨_, _, _, -, ha⟩ | ⟨-, -, ha⟩ | ⟨hc, -, ha⟩ <;> rw [ha]
    · exact .inl ⟨rfl, rfl, rfl, rfl⟩
    · exact .inl ⟨rfl, rfl, rfl, rfl⟩
    · exact .inl ⟨rfl, rfl, rfl, rfl⟩
    · exact .inr ⟨⟨hocc, hc⟩, rfl, rfl, rfl, rfl⟩

theorem memStage_dmem {s t : State} (h : memStage s = .next t) :
    t.dmem = s.dmem ∨ ∃ v b imm4, s.memOccupied = true ∧ s.memInstr = .store v b imm4 ∧
      t.dmem = (s.memWrite s.meml.alu (s.x v)).dmem := by
  rcases memStage_inv h with ⟨-, rfl⟩ | ⟨hocc, -, -, -, rfl⟩
  · exact .inl rfl
  · rcases memActed_cases (s.atStage .mem) s.memInstr with ⟨-, -, ha⟩ | ⟨v, b, imm4, hi, ha⟩ | ⟨-, -, ha⟩ | ⟨-, -, ha⟩ <;> rw [ha]
    · exact .inl rfl
    · exact .inr ⟨v, b, imm4, hocc, hi, rfl⟩
    · exact .inl rfl
    · exact .inl rfl

/-- After MEM an occupied `MEML` is one that waited, and an occupied `WBL` is one that waited or holds MEM's instruction. -/
theorem memStage_latches {s t : State} (h : memStage s = .next t) :
    (t.memOccupied = true → s.memOccupied = true) ∧
    (t.wbOccupied = true → (s.wbOccupied = true ∧ t.wbl = s.wbl) ∨
      (s.memOccupied = true ∧ t.wbl.ir = s.meml.ir ∧ t.wbl.pc = s.meml.pc)) := by
  rcases memStage_inv h with ⟨-, rfl⟩ | ⟨hocc, -, -, -, rfl⟩
  · exact ⟨id, fun hw => .inl ⟨hw, rfl⟩⟩
  · rcases memActed_cases (s.atStage .mem) s.memInstr with ⟨-, -, ha⟩ | ⟨_, _, _, -, ha⟩ | ⟨-, -, ha⟩ | ⟨-, -, ha⟩ <;> rw [ha] <;>
      exact ⟨fun _ => hocc, fun _ => .inr ⟨hocc, rfl, rfl⟩⟩

/-! ## EX -/

theorem exStage_inv {s t : State} (h : exStage s = .next t) :
    ((s.exOccupied = false ∨ s.exStalled = true ∨ s.memOccupied = true ∨ s.memStalled = true) ∧ t = s) ∨
    (s.exOccupied = true ∧ s.exStalled = false ∧ s.memOccupied = false ∧ s.memStalled = false ∧
      t = { (s.atStage .ex).toMem (result s.exInstr (s.atStage .ex)).1 (result s.exInstr (s.atStage .ex)).2 with
        exStalled := isControl s.exInstr || s.exStalled }) := by
  rcases exStage_cases s with ⟨hidle, h'⟩ | ⟨h1, h2, h3, h4, h'⟩ <;> rw [h'] at h <;> cases h
  · exact .inl ⟨hidle, rfl⟩
  · exact .inr ⟨h1, h2, h3, h4, rfl⟩

theorem exStage_frame {s t : State} (h : exStage s = .next t) : t = { s with
    exOccupied := t.exOccupied, exStalled := t.exStalled, meml := t.meml, memOccupied := t.memOccupied, stage := t.stage } := by
  rcases exStage_inv h with ⟨-, rfl⟩ | ⟨-, -, -, -, rfl⟩ <;> rfl

/-! ## ID -/

theorem idStage_inv {s t : State} (h : idStage s = .next t) :
    ((s.idOccupied = false ∨ s.idStalled = true ∨ s.haltSeen = true ∨ s.exOccupied = true ∨ s.exStalled = true) ∧ t = s) ∨
    (s.idOccupied = true ∧ s.idStalled = false ∧ s.haltSeen = false ∧ s.exOccupied = false ∧ s.exStalled = false ∧
      ((s.hazard (srcs s.idInstr) = true ∧ t = (s.atStage .id).countDataStall) ∨
        (s.hazard (srcs s.idInstr) = false ∧ t = (s.atStage .id).issued s.idInstr))) := by
  rcases idStage_cases s with ⟨hidle, h'⟩ | ⟨h1, h2, h3, h4, h5, ⟨hz, h'⟩ | ⟨hz, h'⟩⟩ <;> rw [h'] at h <;> cases h
  · exact .inl ⟨hidle, rfl⟩
  · exact .inr ⟨h1, h2, h3, h4, h5, .inl ⟨hz, rfl⟩⟩
  · exact .inr ⟨h1, h2, h3, h4, h5, .inr ⟨hz, rfl⟩⟩

theorem idStage_frame {s t : State} (h : idStage s = .next t) : t = { s with
    busy := t.busy, stats := t.stats, idStalled := t.idStalled, haltSeen := t.haltSeen, ifOccupied := t.ifOccupied
    idOccupied := t.idOccupied, exl := t.exl, exOccupied := t.exOccupied, stage := t.stage } := by
  rcases idStage_inv h with ⟨-, rfl⟩ | ⟨-, -, -, -, -, ⟨-, rfl⟩ | ⟨-, rfl⟩⟩ <;> rfl

/-! ## IF -/

theorem ifStage_frame (s : State) : ifStage s =
    { s with idl := (ifStage s).idl, idOccupied := (ifStage s).idOccupied, pc := (ifStage s).pc } := by
  rcases ifStage_cases s with ⟨-, h⟩ | ⟨-, -, -, -, h⟩
  · rw [h]
  · rw [h]; rfl

end Sys2Proof.Machine

/-! SUPPORT. A step by its stages: what ID has done to busy bits, flags and counters; how the older stages leave ID's input; and
the packaged induction of an invariant over the five stage functions. -/

namespace Sys2Proof.Machine

open Sys2Proof.Claims

/-! ## What ID does -/

theorem issued_isBusy (s : State) (i : Instr) (r : RegIdx) :
    (s.issued i).isBusy r = if dst i = some r then true else s.isBusy r := by
  rcases hd : dst i with _ | d
  · simp [State.issued, State.isBusy, hd]
  · simpa [State.issued, State.isBusy, State.setBusy, hd] using isBusy_setBusy s d r true

theorem idStage_isBusy {s t : State} (h : idStage s = .next t) (r : RegIdx) :
    t.isBusy r = s.isBusy r ∨
    (t.isBusy r = true ∧ s.idOccupied = true ∧ dst s.idInstr = some r ∧
      t.exOccupied = true ∧ t.exl.ir = s.idl.ir ∧ t.exl.pc = s.idl.pc) := by
  rcases idStage_inv h with ⟨-, rfl⟩ | ⟨hocc, -, -, -, -, ⟨-, rfl⟩ | ⟨-, rfl⟩⟩
  · exact .inl rfl
  · exact .inl rfl
  · by_cases hd : dst s.idInstr = some r
    · exact .inr ⟨by simp [issued_isBusy, hd], hocc, hd, rfl, rfl, rfl⟩
    · exact .inl (by simp [issued_isBusy, hd])

theorem idStage_haltFlags {s t : State} (h : idStage s = .next t) :
    (t.haltSeen = s.haltSeen ∧ t.ifOccupied = s.ifOccupied) ∨
    (s.idOccupied = true ∧ s.idInstr = .halt ∧ t.haltSeen = true ∧ t.ifOccupied = false) := by
  rcases idStage_inv h with ⟨-, rfl⟩ | ⟨hocc, -, -, -, -, ⟨-, rfl⟩ | ⟨-, rfl⟩⟩
  · exact .inl ⟨rfl, rfl⟩
  · exact .inl ⟨rfl, rfl⟩
  · by_cases hi : s.idInstr = .halt
    · exact .inr ⟨hocc, hi, by simp [State.issued, hi]⟩
    · exact .inl (by simp [State.issued, hi])

theorem idStage_stats {s t : State} (h : idStage s = .next t) :
    t.stats = s.stats ∨
    (t.stats = { s.stats with dataStalls := countUp s.cfg s.stats.dataStalls 1 } ∧
      s.idOccupied = true ∧ t.idOccupied = true ∧ ∃ r ∈ srcs s.idInstr, s.isBusy r = true) ∨
    (t.stats = { s.stats with ctrlStalls := countUp s.cfg s.stats.ctrlStalls 2 } ∧
      s.idOccupied = true ∧ isControl s.idInstr = true ∧ t.ctrlInEx) := by
  rcases idStage_inv h with ⟨-, rfl⟩ | ⟨hocc, -, -, -, -, ⟨hz, rfl⟩ | ⟨-, rfl⟩⟩
  · exact .inl rfl
  · exact .inr (.inl ⟨rfl, hocc, hocc, (hazard_iff s _).1 hz⟩)
  · by_cases hi : isControl s.idInstr = true
    · exact .inr (.inr ⟨by simp [State.issued, hi], hocc, hi, rfl, hi⟩)
    · exact .inl (by simp [State.issued, hi])

theorem idStage_idOccupied {s t : State} (h : idStage s = .next t) (ht : t.idOccupied = true) : s.idOccupied = true := by
  rcases idStage_inv h with ⟨-, rfl⟩ | ⟨hocc, -⟩
  · exact ht
  · exact hocc

/-! ## What the older stages leave to ID -/

theorem memStage_idOccupied {s t : State} (h : memStage s = .next t) (ht : t.idOccupied = true) : s.idOccupied = true := by
  rcases memStage_pc h with ⟨-, -, hid, -⟩ | ⟨-, -, -, hid, -⟩
  · rwa [hid] at ht
  · simp [hid] at ht

theorem memStage_exOccupied {s t : State} (h : memStage s = .next t) (ht : t.exOccupied = true) : s.exOccupied = true := by
  rcases memStage_pc h with ⟨-, -, -, hex⟩ | ⟨-, -, -, -, hex⟩
  · rwa [hex] at ht
  · simp [hex] at ht

section
variable {s w m e : State} (hw : wbStage s.rest = .next w) (hm : memStage w = .next m) (he : exStage m = .next e)
include hw hm he

theorem idl_at_id : e.idl = s.idl := by rw [exStage_frame he, memStage_frame hm, wbStage_frame hw]; rfl
theorem haltSeen_at_id : e.haltSeen = s.haltSeen := by rw [exStage_frame he, memStage_frame hm, wbStage_frame hw]; rfl
theorem ifOccupied_at_id : e.ifOccupied = s.ifOccupied := by rw [exStage_frame he, memStage_frame hm, wbStage_frame hw]; rfl
theorem cfg_at_id : e.cfg = s.cfg := by rw [exStage_frame he, memStage_frame hm, wbStage_frame hw]; rfl
theorem idInstr_at_id : e.idInstr = s.idInstr := by simp only [State.idInstr, idl_at_id hw hm he]

theorem idOccupied_at_id (hocc : e.idOccupied = true) : s.idOccupied = true := by
  have hmid : m.idOccupied = true := by rwa [exStage_frame he] at hocc
  have hwid := memStage_idOccupied hm hmid
  rwa [wbStage_frame hw] at hwid

end

/-- MEM and EX touch neither a busy bit nor a counter. -/
theorem stats_at_id {w m e : State} (hm : memStage w = .next m) (he : exStage m = .next e) : e.stats = w.stats := by
  rw [exStage_frame he, memStage_frame hm]
theorem busy_at_id {w m e : State} (hm : memStage w = .next m) (he : exStage m = .next e) : e.busy = w.busy := by
  rw [exStage_frame he, memStage_frame hm]

/-! ## Invariants, stage by stage -/

/-- Kept by each of the five stage functions, and by what a cycle does before and after them (R80). -/
structure KeptByStages (P : State → Prop) : Prop where
  wb : ∀ {s t}, wbStage s = .next t → P s → P t
  mem : ∀ {s t}, memStage s = .next t → P s → P t
  ex : ∀ {s t}, exStage s = .next t → P s → P t
  id : ∀ {s t}, idStage s = .next t → P s → P t
  fetch : ∀ {s}, P s → P s.fetch
  countCycle : ∀ {s}, P s → P s.countCycle
  rest : ∀ {s}, P s → P s.rest

theorem KeptByStages.step {P : State → Prop} (k : KeptByStages P) {s t : State} (h : step s = .next t) (hs : P s) : P t := by
  obtain ⟨-, w, m, e, d, hw, hm, he, hd, rfl⟩ := step_eq_next.1 h
  have hP : P d := k.id hd (k.ex he (k.mem hm (k.wb hw (k.rest hs))))
  refine k.rest (k.countCycle ?_)
  rcases ifStage_cases d with ⟨-, hif⟩ | ⟨-, -, -, -, hif⟩ <;> rw [hif]
  · exact hP
  · exact k.fetch hP

/-- A predicate every step keeps is kept by every run. -/
theorem run_keeps {P : State → Prop} (hstep : ∀ {s t}, step s = .next t → P s → P t) (n : Nat) {s t : State}
    (h : Host.Core.run Sys2Proof.core n s = .next t) (hs : P s) : P t := by
  induction n generalizing s with
  | zero =>
    cases h
    exact hs
  | succ n ih =>
    cases hst : step s with
    | next u => exact ih (by simpa [Host.Core.run, Sys2Proof.core, hst] using h) (hstep hst hs)
    | fault r => simp [Host.Core.run, Sys2Proof.core, hst] at h
    | refused r => simp [Host.Core.run, Sys2Proof.core, hst] at h

/-! ## The register file over a step -/

/-- Only WB writes a register (R86). -/
theorem regs_after_wb {w m e d : State} (hm : memStage w = .next m) (he : exStage m = .next e) (hd : idStage e = .next d) :
    (ifStage d).regs = w.regs := by
  rw [ifStage_frame d, idStage_frame hd, exStage_frame he, memStage_frame hm]

/-- A register after a step: `WBL`'s value if it is the destination of the instruction that retires, else its old value. -/
theorem step_x {s t : State} (h : step s = .next t) (r : RegIdx) :
    t.x r = if s.retires = true ∧ dst s.wbInstr = some r ∧ r ≠ 0 then s.wbl.val else s.x r := by
  obtain ⟨-, w, m, e, d, hw, hm, he, hd, rfl⟩ := step_eq_next.1 h
  exact (x_congr (regs_after_wb hm he hd) r).trans (wbStage_x hw r)

end Sys2Proof.Machine

/-! SUPPORT. The store, even-PC and fetched-word invariants, kept by each stage; the launch state, beside the reset state. -/

namespace Sys2Proof.Machine

/-! ## Canonical stores -/

theorem memoryInv_kept : KeptByStages MemoryInv where
  wb h hs := by rw [wbStage_frame h]; exact hs
  mem {s t} h hs := by
    have himem : t.imem = s.imem := by rw [memStage_frame h]
    refine ⟨himem ▸ hs.1, ?_⟩
    rcases memStage_dmem h with hd | ⟨v, b, imm4, -, -, hd⟩ <;> rw [hd]
    · exact hs.2
    · exact memWrite_wf s _ _ hs.2
  ex h hs := by rw [exStage_frame h]; exact hs
  id h hs := by rw [idStage_frame h]; exact hs
  fetch hs := hs
  countCycle hs := hs
  rest hs := hs

/-! ## Even `PC` -/

theorem even_add {a b : Byte} (ha : a.getLsbD 0 = false) (hb : b.getLsbD 0 = false) : (a + b).getLsbD 0 = false := by
  rw [BitVec.getLsbD_add (by decide), ha, hb]
  simp

/-- EX computes an even target from an even `PC` (R67, R150). -/
theorem result_even_of_control {i : Instr} (hi : isControl i = true) {s : State} (hpc : s.pc.getLsbD 0 = false) :
    (result i s).1.getLsbD 0 = false := by
  have htarget : ∀ imm8, (branchTarget s.pc imm8).getLsbD 0 = false := fun imm8 =>
    even_add hpc (by simp [displacement])
  cases i with
  | jmp imm8 => exact htarget imm8
  | beqz c imm8 =>
    simp only [result, beqzTarget]
    split
    · exact htarget imm8
    · exact hpc
  | _ => cases hi

theorem evenPcInv_kept : KeptByStages EvenPcInv where
  wb h hs := by rw [wbStage_frame h]; exact hs
  mem {s t} h hs := by
    obtain ⟨hpc, htgt⟩ := hs
    have hctrl : t.ctrlInMem → s.ctrlInMem := fun ⟨hocc, hi⟩ =>
      ⟨(memStage_latches h).1 hocc, by rwa [memStage_frame h] at hi⟩
    have hmeml : t.meml = s.meml := by rw [memStage_frame h]
    refine ⟨?_, fun hc => hmeml ▸ htgt (hctrl hc)⟩
    rcases memStage_pc h with ⟨hp, -⟩ | ⟨hc, hp, -⟩ <;> rw [hp]
    · exact hpc
    · exact htgt hc
  ex h hs := by
    rcases exStage_inv h with ⟨-, rfl⟩ | ⟨-, -, -, -, rfl⟩
    · exact hs
    · exact ⟨hs.1, fun hc => result_even_of_control hc.2 hs.1⟩
  id h hs := by rw [idStage_frame h]; exact hs
  fetch hs := ⟨even_add hs.1 rfl, hs.2⟩
  countCycle hs := hs
  rest hs := hs

/-! ## Fetched words -/

theorem fetchedInv_kept : KeptByStages FetchedInv where
  wb {s t} h hs := by
    obtain ⟨hid, hex, hmem, hwb⟩ := hs
    have hocc : t.wbOccupied = true → s.wbOccupied = true := fun ht => by
      rw [wbStage_wbOccupied h] at ht
      exact (Bool.and_eq_true_iff.1 ht).1
    rw [wbStage_frame h]
    exact ⟨hid, hex, hmem, fun ht => hwb (hocc ht)⟩
  mem {s t} h hs := by
    obtain ⟨hid, hex, hmem, hwb⟩ := hs
    have hfetch : ∀ a, t.fetchWord a = s.fetchWord a :=
      fetchWord_congr (by rw [memStage_frame h]) (by rw [memStage_frame h])
    have hidl : t.idl = s.idl := by rw [memStage_frame h]
    have hexl : t.exl = s.exl := by rw [memStage_frame h]
    have hmeml : t.meml = s.meml := by rw [memStage_frame h]
    obtain ⟨hmocc, hwocc⟩ := memStage_latches h
    simp only [FetchedInv, hfetch, hidl, hexl, hmeml]
    refine ⟨fun ht => hid (memStage_idOccupied h ht), fun ht => hex (memStage_exOccupied h ht), fun ht => hmem (hmocc ht),
      fun ht => ?_⟩
    rcases hwocc ht with ⟨hocc, hwbl⟩ | ⟨hocc, hir, hpc⟩
    · rw [hwbl]
      exact hwb hocc
    · rw [hir, hpc]
      exact hmem hocc
  ex h hs := by
    obtain ⟨hid, hex, hmem, hwb⟩ := hs
    rcases exStage_inv h with ⟨-, rfl⟩ | ⟨hocc, -, -, -, rfl⟩
    · exact ⟨hid, hex, hmem, hwb⟩
    · exact ⟨hid, nofun, fun _ => hex hocc, hwb⟩
  id h hs := by
    obtain ⟨hid, hex, hmem, hwb⟩ := hs
    rcases idStage_inv h with ⟨-, rfl⟩ | ⟨hocc, -, -, -, -, ⟨-, rfl⟩ | ⟨-, rfl⟩⟩
    · exact ⟨hid, hex, hmem, hwb⟩
    · exact ⟨hid, hex, hmem, hwb⟩
    · exact ⟨nofun, fun _ => hid hocc, hmem, hwb⟩
  fetch hs := ⟨fun _ => rfl, hs.2⟩
  countCycle hs := hs
  rest hs := hs

/-! ## Launch and reset -/

theorem launch_eq_some {cfg : Config} {img : LaunchImage} {s : State} (h : State.launch cfg img = some s) :
    (img.regs.length ≤ 16 ∧ img.imem.length ≤ storeSize ∧ img.dmem.length ≤ storeSize) ∧
    s = { State.reset with
      regs := Vector.ofFn fun i => img.regs.getD i.val 0
      imem := Memory.ofTokens 0 img.imem
      dmem := Memory.ofTokens 0 img.dmem
      cfg := cfg } := by
  unfold State.launch at h
  split at h
  next hwf =>
    simp only [LaunchImage.wellFormed, Bool.and_eq_true, decide_eq_true_eq] at hwf
    obtain ⟨⟨hregs, himem⟩, hdmem⟩ := hwf
    exact ⟨⟨hregs, himem, hdmem⟩, (Option.some.inj h).symm⟩
  next => cases h

/-- The pipeline invariant does not speak of registers, stores and configuration. -/
theorem pipelineInv_of_data {s : State} (h : PipelineInv s) (regs : Vector Byte 16) (imem dmem : Memory) (cfg : Config) :
    PipelineInv { s with regs := regs, imem := imem, dmem := dmem, cfg := cfg } := { h with }

theorem counterInv_of_data {s : State} (h : CounterInv s) (regs : Vector Byte 16) (imem dmem : Memory) (cfg : Config) :
    CounterInv { s with regs := regs, imem := imem, dmem := dmem, cfg := cfg } := { h with }

/-- At reset every counter is 0 and nothing is in flight. -/
theorem counterInv_reset : CounterInv State.reset := by constructor <;> decide

end Sys2Proof.Machine

/-! The statements on the state of 10_state.md. -/

namespace Sys2Proof.Proofs

open Sys2Proof Sys2Proof.Machine Sys2Proof.Claims

/-! ## Registers and the scoreboard -/

/-- Settles O25: `step_x` gives every register after the step. -/
theorem onlyRetirementWritesARegister : Obligations.OnlyRetirementWritesARegister := by
  intro s t r h hne
  rw [step_x h r] at hne ⊢
  split at hne
  next hret =>
    obtain ⟨hretires, hdst, hr⟩ := hret
    obtain ⟨hocc, hst⟩ := (retires_iff s).1 hretires
    exact ⟨hr, hocc, hst, hdst, if_pos ⟨hretires, hdst, hr⟩⟩
  next => exact absurd rfl hne

/-- Settles O24: a write to register 0 is the identity, and no step writes it, by induction on the number of steps. -/
theorem registerZeroKeepsItsValue : Obligations.RegisterZeroKeepsItsValue := by
  refine ⟨fun s v => by simp [State.writeReg], fun s i => rfl, fun n s t h => ?_⟩
  refine run_keeps (P := fun u => u.x 0 = s.x 0) (fun hstep hs => ?_) n h rfl
  simpa [step_x hstep] using hs

/-- Settles O26: WB is the only stage that clears a busy bit and ID the only one that sets one. -/
theorem busyBitsFollowIssueAndRetire : Obligations.BusyBitsFollowIssueAndRetire := by
  intro s t r h
  obtain ⟨-, w, m, e, d, hw, hm, he, hd, rfl⟩ := step_eq_next.1 h
  have hlast : (ifStage d).countCycle.rest.isBusy r = d.isBusy r := isBusy_congr (by rw [ifStage_frame d]; rfl) r
  have hwb : w.isBusy r = if s.retires = true ∧ dst s.wbInstr = some r then false else s.isBusy r := wbStage_isBusy hw r
  have hid := idStage_isBusy hd r
  rw [isBusy_congr (busy_at_id hm he) r, hwb, idInstr_at_id hw hm he, idl_at_id hw hm he] at hid
  rw [hlast]
  constructor
  · intro hs ht
    rcases hid with hid | ⟨-, hocc, hdst, hex, hir, hpc⟩
    · simp [hid, hs] at ht
    · refine ⟨idOccupied_at_id hw hm he hocc, hdst, ?_⟩
      rw [ifStage_frame d]
      exact ⟨hex, hir, hpc⟩
  · intro hs ht
    rcases hid with hid | ⟨hset, -⟩
    · by_cases hret : s.retires = true ∧ dst s.wbInstr = some r
      · exact ⟨((retires_iff s).1 hret.1).1, hret.2⟩
      · simp [hid, hret, hs] at ht
    · simp [hset] at ht

/-! ## The Data Store -/

/-- Settles O27: MEM is the only stage that writes the Data Store, and no stage after WB writes a register. -/
theorem onlyAStoreWritesTheDataStore : Obligations.OnlyAStoreWritesTheDataStore := by
  intro s t a ⟨_, hwf⟩ h hne
  obtain ⟨-, w, m, e, d, hw, hm, he, hd, rfl⟩ := step_eq_next.1 h
  have hlast : (ifStage d).countCycle.rest.memRead a = m.memRead a :=
    memRead_congr (by rw [ifStage_frame d, idStage_frame hd, exStage_frame he]; rfl) a
  have hwb : w.dmem = s.dmem := by rw [wbStage_frame hw]; rfl
  rcases memStage_dmem hm with hmem | ⟨v, b, imm4, hocc, hinstr, hmem⟩
  · exact absurd (hlast.trans (memRead_congr (hmem.trans hwb) a)) hne
  · have hread : m.memRead a = if w.meml.alu = a then w.x v else w.memRead a :=
      (memRead_congr hmem a).trans (memRead_memWrite w w.meml.alu a (w.x v) (hwb ▸ hwf))
    have hmeml : w.meml = s.meml := by rw [wbStage_frame hw]; rfl
    have hwocc : w.memOccupied = s.memOccupied := by rw [wbStage_frame hw]; rfl
    by_cases ha : w.meml.alu = a
    · rw [if_pos ha] at hread
      refine ⟨hwocc ▸ hocc, hmeml ▸ ha.symm, v, b, imm4, ?_, ?_⟩
      · simpa only [State.memInstr, hmeml] using hinstr
      · exact (hlast.trans hread).trans (x_congr (regs_after_wb hm he hd) v).symm
    · rw [if_neg ha] at hread
      exact absurd ((hlast.trans hread).trans (memRead_congr hwb a)) hne

/-! ## `PC` -/

/-- Settles O28: MEM writes `PC` by a flush, after which nothing is fetched; else IF writes it by the fetch. -/
theorem onlyFetchAndFlushWriteThePc : Obligations.OnlyFetchAndFlushWriteThePc := by
  intro s t h
  obtain ⟨-, w, m, e, d, hw, hm, he, hd, rfl⟩ := step_eq_next.1 h
  have hpc : d.pc = m.pc := by rw [idStage_frame hd, exStage_frame he]
  have hflushed : d.flushed = m.flushed := by rw [idStage_frame hd, exStage_frame he]
  rcases memStage_pc hm with ⟨hmpc, -⟩ | ⟨hctrl, hmpc, hmf, hmid, -⟩
  · have hdpc : d.pc = s.pc := by rw [hpc, hmpc, wbStage_frame hw]; rfl
    rcases ifStage_cases d with ⟨-, hif⟩ | ⟨-, -, -, -, hif⟩ <;> rw [hif]
    · exact .inl hdpc
    · have hfetch : d.fetchWord d.pc = s.fetchWord s.pc := by
        rw [hdpc]
        refine fetchWord_congr ?_ ?_ s.pc <;>
          (rw [idStage_frame hd, exStage_frame he, memStage_frame hm, wbStage_frame hw]; rfl)
      exact .inr (.inl ⟨congrArg (· + 2) hdpc, rfl, congrArg₂ IdLatch.mk hfetch hdpc⟩)
  · have hdid : d.idOccupied ≠ true := fun hocc => by
      have heocc := idStage_idOccupied hd hocc
      rw [exStage_frame he] at heocc
      simp [hmid] at heocc
    have hif : ifStage d = d := by simp [ifStage, hflushed, hmf]
    rw [hif]
    rw [wbStage_frame hw] at hctrl hmpc
    exact .inr (.inr ⟨hctrl, hpc.trans hmpc, by simpa using hdid⟩)

/-! ## The halt flags and the fetch enable -/

/-- Settles O29: ID is the only stage that touches `halt_seen` and the fetch enable, WB the only one that sets `halted`. -/
theorem haltFlagsAreNeverCleared : Obligations.HaltFlagsAreNeverCleared := by
  intro s t h
  obtain ⟨hrun, w, m, e, d, hw, hm, he, hd, rfl⟩ := step_eq_next.1 h
  have hhalted : d.halted = w.halted := by rw [idStage_frame hd, exStage_frame he, memStage_frame hm]
  have hwb : w.halted = (s.halted || s.retires && decide (s.wbInstr = .halt)) :=
    wbStage_halted (s := s.rest) hw
  have hid := idStage_haltFlags hd
  rw [haltSeen_at_id hw hm he, ifOccupied_at_id hw hm he, idInstr_at_id hw hm he] at hid
  rw [ifStage_frame d]
  refine ⟨fun hs => ?_, fun hs => ?_, fun ht => ?_, fun hs ht => ?_⟩
  · rcases hid with ⟨-, hif⟩ | ⟨-, -, -, hif⟩
    · exact hif.trans hs
    · exact hif
  · rcases hid with ⟨hseen, -⟩ | ⟨-, -, hseen, -⟩
    · exact hseen.trans hs
    · exact hseen
  · have hret : s.retires = true ∧ s.wbInstr = .halt := by simpa [hhalted, hwb, hrun] using ht
    exact ⟨((retires_iff s).1 hret.1).1, hret.2⟩
  · rcases hid with ⟨hseen, -⟩ | ⟨hocc, hinstr, -, hif⟩
    · exact absurd (hseen.symm.trans ht) (by simp [hs])
    · exact ⟨idOccupied_at_id hw hm he hocc, hinstr, hif⟩

/-! ## The counters -/

/-- Settles O30: WB counts the class (`wbStage_counts`), ID the stalls (`idStage_stats`), and the end of the cycle the cycle. -/
theorem countersOnlyCountUp : Obligations.CountersOnlyCountUp := by
  intro s t hcfg h
  obtain ⟨-, w, m, e, d, hw, hm, he, hd, rfl⟩ := step_eq_next.1 h
  obtain ⟨hclass, hcyc, hdata, hctrl⟩ := wbStage_counts (s := s.rest) hcfg hw
  have hecfg : e.cfg = s.cfg := cfg_at_id hw hm he
  have hdcfg : d.cfg = e.cfg := by rw [idStage_frame hd]
  have hidl : d.idl = e.idl := by rw [idStage_frame hd]
  have hlast : (ifStage d).countCycle.rest.stats = { d.stats with cycles := d.stats.cycles + 1 } := by
    rw [ifStage_frame d]
    simp [hdcfg, hecfg, countUp_none hcfg]
  have hid := idStage_stats hd
  rw [stats_at_id hm he, hecfg, countUp_none hcfg, countUp_none hcfg, idInstr_at_id hw hm he] at hid
  rw [hlast]
  rcases hid with hst | ⟨hst, hocc, hwait, r, hr, hbusy⟩ | ⟨hst, hocc, hi, hex⟩ <;> rw [hst]
  · exact ⟨congrArg (· + 1) hcyc, hclass, .inl hdata, .inl hctrl⟩
  · have hif : ifStage d = d := by simp [ifStage, hwait]
    have hsbusy : s.isBusy r = true :=
      isBusy_of_wbStage (s := s.rest) hw ((isBusy_congr (busy_at_id hm he) r).symm.trans hbusy)
    refine ⟨congrArg (· + 1) hcyc, hclass, .inr ⟨congrArg (· + 1) hdata, idOccupied_at_id hw hm he hocc, ?_, ?_, r, hr, hsbusy⟩,
      .inl hctrl⟩ <;> rw [hif]
    · exact hwait
    · exact hidl.trans (idl_at_id hw hm he)
  · refine ⟨congrArg (· + 1) hcyc, hclass, .inl hdata,
      .inr ⟨congrArg (· + 2) hctrl, idOccupied_at_id hw hm he hocc, hi, ?_⟩⟩
    rw [ifStage_frame d]
    exact hex

/-! ## The invariants of a step -/

/-- Settles O40: MEM's write keeps the canonical form (`memWrite_wf`), and no other stage touches a store. -/
theorem stepsKeepTheStoresCanonical : Obligations.StepsKeepTheStoresCanonical :=
  fun _ _ hs h => memoryInv_kept.step h hs

/-- Settles O41: MEM sets `PC` to an even target, IF adds 2, and EX computes a target from an even `PC`. -/
theorem stepsKeepThePcEven : Obligations.StepsKeepThePcEven :=
  fun _ _ hs h => evenPcInv_kept.step h hs

/-- Settles O42: IF takes the word at `PC`, each other stage hands its latch's word on with the address, and no stage writes the
Instruction Store. -/
theorem stepsKeepFetchedWords : Obligations.StepsKeepFetchedWords :=
  fun _ _ hs h => fetchedInv_kept.step h hs

/-! ## Launch and reset -/

/-- Settles O5: the rows of the stores are `Memory.read_ofTokens`, the others are read off. -/
theorem launchStateFollowsTheTable : Obligations.LaunchStateFollowsTheTable := by
  intro cfg img hwf
  obtain ⟨s, hs⟩ : ∃ s, State.launch cfg img = some s := by simp [State.launch, hwf]
  obtain ⟨⟨-, hi, hd⟩, rfl⟩ := launch_eq_some hs
  refine ⟨_, hs, fun i => ⟨?_, ?_⟩, rfl, fun a => ⟨?_, ?_⟩, ?_⟩
  · simp [State.x]
  · simp [State.isBusy, State.reset]
  · simp [State.imemRead, Memory.read_ofTokens 0 img.imem a.toNat (by omega)]
  · simp [State.memRead, Memory.read_ofTokens 0 img.dmem a.toNat (by omega)]
  · simp [State.reset]

/-- Settles O39: each invariant of the one reset state is a finite fact. -/
theorem resetMeetsTheInvariants : Obligations.ResetMeetsTheInvariants :=
  ⟨by constructor <;> decide, by decide, by decide, by decide⟩

/-- Settles O38: the launch state differs from reset in registers, stores and configuration alone; the images' stores are
canonical by `Memory.ofTokens_wf`. -/
theorem launchMeetsTheInvariants : Obligations.LaunchMeetsTheInvariants := by
  intro cfg img s h
  obtain ⟨⟨-, himem, hdmem⟩, rfl⟩ := launch_eq_some h
  obtain ⟨hpipe, -, heven, -⟩ := resetMeetsTheInvariants
  refine ⟨pipelineInv_of_data hpipe _ _ _ _, ⟨?_, ?_⟩, heven, nofun, nofun, nofun, nofun⟩
  · exact (Memory.ofTokens_wf 0 img.imem (by omega)).1
  · exact (Memory.ofTokens_wf 0 img.dmem (by omega)).1

/-- Settles O49: a launch state counts as the reset state does. -/
theorem launchMeetsTheCounterInvariant : Obligations.LaunchMeetsTheCounterInvariant := by
  intro cfg img s h
  obtain ⟨-, rfl⟩ := launch_eq_some h
  exact counterInv_of_data counterInv_reset _ _ _ _

end Sys2Proof.Proofs

/-! SUPPORT. What a step leaves of the state: the Instruction Store and the configuration, which no stage writes (R15, R54). -/

namespace Sys2Proof.Machine

theorem step_imem {s t : State} (h : step s = .next t) : t.imem = s.imem := by
  obtain ⟨-, w, m, e, d, hw, hm, he, hd, rfl⟩ := step_eq_next.1 h
  have hif : (ifStage d).imem = d.imem := by rw [ifStage_frame d]
  have hid : d.imem = s.imem := by rw [idStage_frame hd, exStage_frame he, memStage_frame hm, wbStage_frame hw]; rfl
  exact hif.trans hid

theorem step_cfg {s t : State} (h : step s = .next t) : t.cfg = s.cfg := by
  obtain ⟨-, w, m, e, d, hw, hm, he, hd, rfl⟩ := step_eq_next.1 h
  have hif : (ifStage d).cfg = d.cfg := by rw [ifStage_frame d]
  have hid : d.cfg = e.cfg := by rw [idStage_frame hd]
  exact hif.trans (hid.trans (cfg_at_id hw hm he))

end Sys2Proof.Machine

/-! The statements on the stores. -/

namespace Sys2Proof.Proofs

open Sys2Proof Sys2Proof.Machine Sys2Proof.Claims

/-- Settles O23: a STORE in MEM writes the Data Store, a fetch reads the Instruction Store, and no stage writes the latter, so a
fetch after the step reads the same bytes in the same byte order (`fetchWord_congr`). -/
theorem instructionStoreNeverChanges : Obligations.InstructionStoreNeverChanges :=
  fun _ _ h => ⟨step_imem h, step_cfg h, fetchWord_congr (step_imem h) (step_cfg h)⟩

end Sys2Proof.Proofs

/-! SUPPORT. A word as its four nibbles: the case split on it, its immediates and masks in this form, and its fields by division
of the word as a number (R62 to R68). -/

namespace Sys2Proof

open Sys2Proof.Machine Sys2Proof.Claims

/-! ## Every word is four nibbles (R62) -/

/-- The case split on a word: sixteen opcodes, and three nibbles of fields. -/
theorem exists_eq_nibbles (ir : Word) : ∃ k < 16, ∃ a b c, ir = nibbles (BitVec.ofNat 4 k) a b c := by
  refine ⟨ir.op.toNat, ir.op.isLt, ir.extractLsb' 8 4, ir.extractLsb' 4 4, ir.extractLsb' 0 4, ?_⟩
  rw [BitVec.ofNat_toNat, BitVec.setWidth_eq]
  apply BitVec.eq_of_getLsbD_eq
  intro i hi
  rw [getLsbD_nibbles]
  interval_cases i <;> simp [Word.op]

@[simp] theorem jmpImm8_nibbles (op a b c : BitVec 4) : (nibbles op a b c).jmpImm8 = a ++ b := by
  apply BitVec.eq_of_getLsbD_eq
  intro i hi
  rw [Word.jmpImm8, BitVec.getLsbD_extractLsb', getLsbD_nibbles, BitVec.getLsbD_append]
  interval_cases i <;> simp

@[simp] theorem beqzImm8_nibbles (op a b c : BitVec 4) : (nibbles op a b c).beqzImm8 = b ++ c := by
  apply BitVec.eq_of_getLsbD_eq
  intro i hi
  rw [Word.beqzImm8, BitVec.getLsbD_extractLsb', getLsbD_nibbles, BitVec.getLsbD_append]
  interval_cases i <;> simp

@[simp] theorem regBits_toFin (a : BitVec 4) : regBits a.toFin = a := rfl

/-! An 8-bit immediate and its two nibbles (R65, R66): the library's lemmas, which `simp` does not find at 8 = 4 + 4. -/

@[simp] theorem high_append_low (i : BitVec 8) : i.extractLsb' 4 4 ++ i.extractLsb' 0 4 = i :=
  BitVec.extractLsb'_append_extractLsb'
@[simp] theorem high_of_append (a b : BitVec 4) : (a ++ b : BitVec 8).extractLsb' 4 4 = a :=
  BitVec.extractLsb'_append_eq_left
@[simp] theorem low_of_append (a b : BitVec 4) : (a ++ b : BitVec 8).extractLsb' 0 4 = b :=
  BitVec.extractLsb'_append_eq_right

/-! ## Masks of nibbles (R68) -/

theorem nibbles_and_nibbles (op a b c op' a' b' c' : BitVec 4) :
    nibbles op a b c &&& nibbles op' a' b' c' = nibbles (op &&& op') (a &&& a') (b &&& b') (c &&& c') := by
  apply BitVec.eq_of_getLsbD_eq
  intro i _
  simp only [getLsbD_nibbles, BitVec.getLsbD_and]
  split_ifs <;> rfl

/-- `BitVec.and_allOnes` with the mask as the literal that `simp` leaves. -/
theorem nibble_and_ones (a : BitVec 4) : a &&& 15#4 = a := BitVec.and_allOnes

@[simp] theorem nibbles_and_F000 (op a b c : BitVec 4) : nibbles op a b c &&& 0xF000#16 = nibbles op 0 0 0 :=
  (nibbles_and_nibbles op a b c 15 0 0 0).trans (by simp [nibble_and_ones])

@[simp] theorem nibbles_and_FF00 (op a b c : BitVec 4) : nibbles op a b c &&& 0xFF00#16 = nibbles op a 0 0 :=
  (nibbles_and_nibbles op a b c 15 15 0 0).trans (by simp [nibble_and_ones])

@[simp] theorem nibbles_and_FFF0 (op a b c : BitVec 4) : nibbles op a b c &&& 0xFFF0#16 = nibbles op a b 0 :=
  (nibbles_and_nibbles op a b c 15 15 15 0).trans (by simp [nibble_and_ones])

@[simp] theorem nibbles_and_FFFF (op a b c : BitVec 4) : nibbles op a b c &&& 0xFFFF#16 = nibbles op a b c :=
  BitVec.and_allOnes

/-! ## The two round trips -/

/-- Each format's fields are read from the nibbles they are put in (R62, R69). -/
@[simp] theorem decode_encode (i : Instr) : decode (encode i) = i := by
  cases i <;> simp [encode, decode]

/-- For each opcode the mask keeps the nibbles that the instruction has a field for, and these are the ones emitted (R68). -/
theorem encode_decode (ir : Word) : encode (decode ir) = ir &&& fieldMask ir := by
  obtain ⟨k, hk, a, b, c, rfl⟩ := exists_eq_nibbles ir
  interval_cases k <;> simp [decode, encode, fieldMask]

/-- What the encoder emits has no ignored bit set: both round trips give it back, the second with its ignored bits clear. -/
theorem encode_canonical (i : Instr) : (encode i).canonical = true := by
  have h : encode i = encode i &&& fieldMask (encode i) := by simpa using encode_decode (encode i)
  simp [Word.canonical, ← h]

@[simp] theorem decodeBytes_encodeBytes_append (cfg : Config) (i : Instr) (rest : List Byte) :
    decodeBytes cfg (encodeBytes cfg i ++ rest) = .ok (i, rest) := by
  simp [encodeBytes, decodeBytes]

/-! ## Fields by division (R62) -/

theorem op_toNat (ir : Word) : ir.op.toNat = opN ir := by
  have := ir.isLt
  simp only [Word.op, BitVec.extractLsb'_toNat, Nat.shiftRight_eq_div_pow, opN]
  omega

theorem f1_eq_r1 (ir : Word) : ir.f1 = r1 ir := by
  simp [Word.f1, r1, Nat.shiftRight_eq_div_pow]

theorem f2_eq_r2 (ir : Word) : ir.f2 = r2 ir := by
  simp [Word.f2, r2, Nat.shiftRight_eq_div_pow]

theorem f3_eq_r3 (ir : Word) : ir.f3 = r3 ir := by
  simp [Word.f3, r3]

theorem imm4_eq_ofNat (ir : Word) : ir.imm4 = BitVec.ofNat 4 ir.toNat := by
  simp [Word.imm4, ← BitVec.toNat_inj]

theorem jmpImm8_eq_ofNat (ir : Word) : ir.jmpImm8 = BitVec.ofNat 8 (ir.toNat / 16) := by
  simp [Word.jmpImm8, ← BitVec.toNat_inj, Nat.shiftRight_eq_div_pow]

theorem beqzImm8_eq_ofNat (ir : Word) : ir.beqzImm8 = BitVec.ofNat 8 ir.toNat := by
  simp [Word.beqzImm8, ← BitVec.toNat_inj]

end Sys2Proof

/-! SUPPORT. The load/store offset as a number (R64). -/

namespace Sys2Proof.Machine

open Sys2Proof.Claims

/-- Sign extension of a nibble adds 240 when its top bit is set (R64). -/
theorem offset_eq_ofNat (cfg : Config) (imm4 : BitVec 4) : offset cfg imm4 = BitVec.ofNat 8 (offN cfg imm4.toNat) := by
  cases hs : cfg.imm4Signed
  · simp [offset, offN, hs]
  · revert imm4
    simp only [offset, offN, hs]
    decide

end Sys2Proof.Machine

/-! The statements on the encoding and on the effective address. -/

namespace Sys2Proof.Proofs

open Sys2Proof Sys2Proof.Machine Sys2Proof.Claims

/-- Settles O3: the round trips are `decode_encode` and `encode_decode`, and the bytes of a word make it again in either byte
order. -/
theorem decodeAndEncodeAgree : Obligations.DecodeAndEncodeAgree :=
  ⟨fun cfg i rest => ⟨decode_encode i, decodeBytes_encodeBytes_append cfg i rest⟩,
    fun ir => ⟨encode_decode ir, encode_canonical (decode ir)⟩⟩

/-- Settles O2: the decoder's fields are the quotients (`op_toNat` and the lemmas after it); the columns are read off opcode by
opcode. -/
theorem decodeFollowsTheNibbles : Obligations.DecodeFollowsTheNibbles := by
  intro ir
  have hlt : opN ir < 16 := op_toNat ir ▸ ir.op.isLt
  unfold decode tested marked classN
  rw [op_toNat, f1_eq_r1, f2_eq_r2, f3_eq_r3, imm4_eq_ofNat, jmpImm8_eq_ofNat, beqzImm8_eq_ofNat]
  generalize opN ir = k at hlt
  interval_cases k <;> exact ⟨rfl, rfl, rfl, rfl⟩

/-- Settles O4: a word decodes as the word with its ignored bits clear does, by the round trips. The masks keep the opcode,
so equal opcodes need not be assumed. -/
theorem ignoredBitsTakeNoPart : Obligations.IgnoredBitsTakeNoPart := by
  intro ir ir' _ hmask
  calc decode ir = decode (encode (decode ir)) := (decode_encode _).symm
    _ = decode (encode (decode ir')) := by rw [encode_decode, encode_decode, hmask]
    _ = decode ir' := decode_encode _

/-- Settles O21: the sum is `offset_eq_ofNat` modulo 256; either extension keeps the number it reads. -/
theorem effectiveAddressAddsTheOffset : Obligations.EffectiveAddressAddsTheOffset := by
  intro cfg base imm4
  refine ⟨?_, fun hs => ?_, fun hs => ?_⟩
  · simp [effectiveAddress, offset_eq_ofNat, BitVec.ofNat_add]
  · have := imm4.isLt
    simp [offset, hs]
    omega
  · simp [offset, hs, BitVec.toInt_signExtend_of_le]

end Sys2Proof.Proofs

/-! SUPPORT. An instruction passing alone through the four stages (R8, R206): its state after each stage, and for an instruction
with a destination (R120 to R128, R141) the state it leaves. -/

namespace Sys2Proof.Machine

open Sys2Proof.Claims

/-! ## The four stage actions in a row -/

/-- `i` has issued and EX has acted on it. -/
def State.throughEx (s : State) (i : Instr) : State :=
  let e := ((s.atStage .id).issued i).atStage .ex
  { e.toMem (result i e).1 (result i e).2 with exStalled := isControl i || e.exStalled }

/-- MEM has acted on `i` too, and its value waits in `WBL`. -/
def State.throughMem (s : State) (i : Instr) : State :=
  let m := (s.throughEx i).atStage .mem
  (m.memActed i).toWb (m.memVal i)

/-- An instruction none of whose source registers is busy passes through all four stages. -/
theorem passes_of_free {i : Instr} {s : State} (hfree : s.hazard (srcs i) = false) :
    Passes i s (((s.throughMem i).atStage .wb).retired i) := by
  have hid : exec i (s.atStage .id) = .next ((s.atStage .id).issued i) := by
    have hfree' : (s.atStage .id).hazard (srcs i) = false := hfree
    rw [exec_id i _ rfl, hfree']
    rfl
  exact ⟨_, s.throughEx i, s.throughMem i, hid, exec_ex i _ rfl, exec_mem i _ rfl, exec_wb i _ rfl⟩

/-! ## Instructions with a destination -/

/-- An instruction with a destination is neither a control instruction nor a HALT, and MEM changes nothing before it
deposits. -/
theorem passive_of_dst {i : Instr} {d : RegIdx} (hdst : dst i = some d) :
    isControl i = false ∧ i ≠ .halt ∧ ∀ s : State, s.memActed i = s.consumeMem := by
  cases i <;> cases hdst <;> exact ⟨rfl, nofun, fun _ => rfl⟩

/-- An instruction with destination `d` has, through MEM, marked `d` busy and reached `WBL`, and otherwise changed no more than
the contents of the latches it passed. -/
theorem throughMem_of_dst {i : Instr} {d : RegIdx} (hdst : dst i = some d) (s : State) :
    s.throughMem i = { drainedOf s with
      busy := s.busy.set d true
      exl := (s.throughMem i).exl
      meml := (s.throughMem i).meml
      wbl := (s.throughMem i).wbl
      wbOccupied := true
      stage := .mem } := by
  obtain ⟨hctrl, hhalt, hmem⟩ := passive_of_dst hdst
  simp only [State.throughMem, hmem]
  simp [State.throughEx, State.issued, hdst, hctrl, hhalt, drainedOf, State.toWb, State.consumeMem, State.toMem,
    State.atStage]

/-- Counting a class changes nothing but the statistics (R99). -/
theorem countClass_eq_counted (s : State) (c : InstrClass) :
    s.countClass c = { s with stats := counted s.cfg s.stats (some c) } := by
  cases c <;> rfl

/-- An instruction with a destination and a class, LOAD included, retires by `State.retireResult` (R98, R99). -/
theorem retired_of_dst {i : Instr} {d : RegIdx} {c : InstrClass} (hdst : dst i = some d) (hclass : instrClass i = some c)
    (s : State) : s.retired i = s.retireResult d c := by
  obtain ⟨-, hhalt, -⟩ := passive_of_dst hdst
  by_cases hd : d = 0 <;>
    simp [State.retired, State.retireResult, State.setBusy, State.writeReg, State.consumeWb, hdst, hclass, hhalt, hd]

/-- Passing alone, such an instruction writes to its destination the value it carries from MEM, and leaves nothing else
behind but the count of its class. -/
theorem leaves_afterResult {i : Instr} {s : State} {d : RegIdx} {c : InstrClass} {val : Byte}
    (hfree : s.hazard (srcs i) = false) (hdst : dst i = some d) (hclass : instrClass i = some c)
    (hval : (s.throughEx i).memVal i = val) : Leaves i s (afterResult s d val c) := by
  refine ⟨_, passes_of_free hfree, ?_⟩
  have hwbl : (s.throughMem i).wbl.val = val := hval
  rw [retired_of_dst hdst hclass, throughMem_of_dst hdst s]
  by_cases hd : d = 0 <;>
    simp [meaningful, afterResult, drainedOf, State.retireResult, countClass_eq_counted, State.setBusy, State.writeReg,
      State.consumeWb, State.atStage, hd, hwbl]

/-! ## The ALU's results as arithmetic modulo 256 (R129), where the library does not say so -/

theorem ofNat_sub_toNat (x y : Byte) : BitVec.ofNat 8 (x.toNat + 256 - y.toNat) = x - y := by
  bv_omega

theorem ofNat_not_toNat (x : Byte) : BitVec.ofNat 8 (255 - x.toNat) = ~~~x := by
  bv_omega

/-! ## The hazard check of one and of two registers (R89) -/

theorem hazard_one_free {s : State} {a : RegIdx} (ha : s.isBusy a = false) : s.hazard [a] = false := by
  simp [State.hazard, ha]

theorem hazard_two_free {s : State} {a b : RegIdx} (ha : s.isBusy a = false) (hb : s.isBusy b = false) :
    s.hazard [a, b] = false := by
  simp [State.hazard, ha, hb]

end Sys2Proof.Machine

/-! The statements on the arithmetic and logical instructions. -/

namespace Sys2Proof.Proofs

open Sys2Proof Sys2Proof.Machine Sys2Proof.Claims

/-- Settles O14: each passes by `leaves_afterResult`, and what EX computes is the sum, difference or product modulo 256. -/
theorem arithmeticInstructionsComplete : Obligations.ArithmeticInstructionsComplete := by
  intro s d a b ha hb
  have hab := hazard_two_free ha hb
  simp only [BitVec.ofNat_add, BitVec.ofNat_mul, BitVec.ofNat_toNat, BitVec.setWidth_eq, ofNat_sub_toNat]
  exact ⟨leaves_afterResult hab rfl rfl rfl, leaves_afterResult hab rfl rfl rfl, leaves_afterResult hab rfl rfl rfl,
    leaves_afterResult (hazard_one_free ha) rfl rfl rfl⟩

/-- Settles O15: as O14, with the bitwise results; NOT is the complement to 255. -/
theorem logicalInstructionsComplete : Obligations.LogicalInstructionsComplete := by
  intro s d a b ha hb
  have hab := hazard_two_free ha hb
  rw [ofNat_not_toNat]
  exact ⟨leaves_afterResult hab rfl rfl rfl, leaves_afterResult hab rfl rfl rfl,
    leaves_afterResult (hazard_one_free ha) rfl rfl rfl, leaves_afterResult hab rfl rfl rfl⟩

end Sys2Proof.Proofs

/-! SUPPORT. MEM and EX within a step (R86, R93, R95): when they are not stalled, what they leave in the Data Store, in `WBL`
and in `MEML`, in terms of the state before the step; and a STORE passing alone. -/

namespace Sys2Proof.Machine

open Sys2Proof.Claims

/-! ## Every state but the halted one has a step -/

/-- No stage function refuses or faults (R170), so only `halted` stops the machine (R84). -/
theorem exists_step {s : State} (hs : s.halted = false) : ∃ t, step s = .next t := by
  have hwb : ∀ s, ∃ t, wbStage s = .next t := fun s => by
    rcases wbStage_cases s with ⟨-, h⟩ | ⟨-, -, h⟩ <;> exact ⟨_, h⟩
  have hmem : ∀ s, ∃ t, memStage s = .next t := fun s => by
    rcases memStage_cases s with ⟨-, h⟩ | ⟨-, -, -, -, h⟩ <;> exact ⟨_, h⟩
  have hex : ∀ s, ∃ t, exStage s = .next t := fun s => by
    rcases exStage_cases s with ⟨-, h⟩ | ⟨-, -, -, -, h⟩ <;> exact ⟨_, h⟩
  have hid : ∀ s, ∃ t, idStage s = .next t := fun s => by
    rcases idStage_cases s with ⟨-, h⟩ | ⟨-, -, -, -, -, ⟨-, h⟩ | ⟨-, h⟩⟩ <;> exact ⟨_, h⟩
  obtain ⟨w, hw⟩ := hwb s.rest
  obtain ⟨m, hm⟩ := hmem w
  obtain ⟨e, he⟩ := hex m
  obtain ⟨d, hd⟩ := hid e
  exact ⟨_, step_eq_next.2 ⟨hs, w, m, e, d, hw, hm, he, hd, rfl⟩⟩

/-! ## The stall flags of MEM and WB -/

/-- Nothing sets the stall flags of MEM and WB (R19). -/
theorem memWbNotStalled_kept : KeptByStages fun s => s.memStalled = false ∧ s.wbStalled = false where
  wb h hs := by rw [wbStage_frame h]; exact hs
  mem {s t} h hs := by
    rcases memStage_inv h with ⟨-, rfl⟩ | ⟨-, -, -, -, rfl⟩
    · exact hs
    · rcases memActed_cases (s.atStage .mem) s.memInstr with ⟨-, -, ha⟩ | ⟨_, _, _, -, ha⟩ | ⟨-, -, ha⟩ | ⟨-, -, ha⟩ <;> rw [ha]
      · exact hs
      · exact hs
      · exact hs
      · exact ⟨rfl, rfl⟩
  ex h hs := by rw [exStage_frame h]; exact hs
  id h hs := by rw [idStage_frame h]; exact hs
  fetch hs := hs
  countCycle hs := hs
  rest hs := hs

/-! ## MEM and EX within a step -/

theorem memVal_congr {s t : State} (hmeml : s.meml = t.meml) (hdmem : s.dmem = t.dmem) (i : Instr) :
    s.memVal i = t.memVal i := by
  cases i <;> simp [State.memVal, hmeml, memRead_congr hdmem]

/-- Nothing MEM does reaches `MEML` itself. -/
theorem memActed_meml (s : State) (i : Instr) : (s.memActed i).meml = s.meml := by
  rcases memActed_cases s i with ⟨-, -, h⟩ | ⟨_, _, _, -, h⟩ | ⟨-, -, h⟩ | ⟨-, -, h⟩ <;> rw [h] <;> rfl

theorem result_congr {s t : State} (hexl : s.exl = t.exl) (hpc : s.pc = t.pc) (hcfg : s.cfg = t.cfg) (i : Instr) :
    result i s = result i t := by
  cases i <;> simp [result, hexl, hpc, hcfg]

/-- With MEM and WB not stalled, `WBL` empty and no control instruction in `MEML`, MEM empties `MEML` and leaves `PC`, the
younger latches and the stall flags as they were. -/
theorem memStage_frame_of_not_ctrl {s t : State} (h : memStage s = .next t) (hctrl : ¬ s.ctrlInMem)
    (hst : s.memStalled = false ∧ s.wbStalled = false) (hwb : s.wbOccupied = false) :
    t.memOccupied = false ∧ t = { s with
      dmem := t.dmem, memOccupied := t.memOccupied, wbOccupied := t.wbOccupied, wbl := t.wbl, stage := t.stage } := by
  rcases memStage_inv h with ⟨hidle, rfl⟩ | ⟨hocc, -, -, -, rfl⟩
  · exact ⟨by simpa [hst, hwb] using hidle, rfl⟩
  · rcases memActed_cases (s.atStage .mem) s.memInstr with ⟨-, -, ha⟩ | ⟨_, _, _, -, ha⟩ | ⟨hc, -, -⟩ | ⟨hc, -, -⟩
    · rw [ha]; exact ⟨rfl, rfl⟩
    · rw [ha]; exact ⟨rfl, rfl⟩
    · exact absurd ⟨hocc, hc⟩ hctrl
    · exact absurd ⟨hocc, hc⟩ hctrl

section
variable {s : State} (hst : s.memStalled = false ∧ s.wbStalled = false)

/-- WB leaves to MEM the latch and the Data Store as they stood before the cycle. -/
theorem meml_dmem_at_mem {w : State} (hw : wbStage s.rest = .next w) : w.meml = s.meml ∧ w.dmem = s.dmem := by
  rw [wbStage_frame hw]; exact ⟨rfl, rfl⟩

include hst

/-- An unstalled WB leaves `WBL` empty, and MEM and WB are still not stalled. -/
theorem ready_at_mem {w : State} (hw : wbStage s.rest = .next w) :
    w.wbOccupied = false ∧ w.memStalled = false ∧ w.wbStalled = false :=
  ⟨by simp [wbStage_wbOccupied hw, hst.2], by rw [wbStage_frame hw]; exact hst⟩

/-- So MEM acts on the word in an occupied `MEML`. -/
theorem memStage_acts {w m : State} (hw : wbStage s.rest = .next w) (hm : memStage w = .next m) (hocc : s.memOccupied = true) :
    m = ((w.atStage .mem).memActed s.memInstr).toWb ((w.atStage .mem).memVal s.memInstr) := by
  have hwocc : w.memOccupied = true := by rw [wbStage_frame hw]; exact hocc
  have hinstr : w.memInstr = s.memInstr := by rw [State.memInstr, (meml_dmem_at_mem hw).1]; rfl
  rcases memStage_inv hm with ⟨hidle, -⟩ | ⟨-, -, -, -, h⟩
  · simp [hwocc, ready_at_mem hst hw] at hidle
  · rwa [hinstr] at h

/-- The Data Store after a step with a STORE in `MEML`: one byte is written, the value register as the step leaves it (R143). -/
theorem step_dmem_of_store {t : State} (h : step s = .next t) (hocc : s.memOccupied = true) {v b : RegIdx} {imm4 : BitVec 4}
    (hinstr : s.memInstr = .store v b imm4) : t.dmem = (s.memWrite s.meml.alu (t.x v)).dmem := by
  obtain ⟨-, w, m, e, d, hw, hm, he, hd, rfl⟩ := step_eq_next.1 h
  obtain ⟨hmeml, hdmem⟩ := meml_dmem_at_mem hw
  have hx : (ifStage d).countCycle.rest.x v = w.x v := x_congr (regs_after_wb hm he hd) v
  have hlast : (ifStage d).countCycle.rest.dmem = m.dmem := by
    rw [ifStage_frame d, idStage_frame hd, exStage_frame he]; rfl
  have hmem : m.dmem = (w.memWrite w.meml.alu (w.x v)).dmem := by
    rw [memStage_acts hst hw hm hocc, hinstr]; rfl
  rw [hlast, hmem, hx, memWrite_dmem, memWrite_dmem, hmeml, hdmem]

/-- The word in `MEML` moves on to `WBL` with the byte it carries (R95). -/
theorem step_wbl {t : State} (h : step s = .next t) (hocc : s.memOccupied = true) :
    t.wbOccupied = true ∧ t.wbl = { ir := s.meml.ir, pc := s.meml.pc, val := s.memVal s.memInstr } := by
  obtain ⟨-, w, m, e, d, hw, hm, he, hd, rfl⟩ := step_eq_next.1 h
  obtain ⟨hmeml, hdmem⟩ := meml_dmem_at_mem hw
  have hval : (w.atStage .mem).memVal s.memInstr = s.memVal s.memInstr := memVal_congr hmeml hdmem _
  have hkeep : ((w.atStage .mem).memActed s.memInstr).meml = s.meml := (memActed_meml _ _).trans hmeml
  rw [ifStage_frame d, idStage_frame hd, exStage_frame he, memStage_acts hst hw hm hocc, ← hval, ← hkeep]
  exact ⟨rfl, rfl⟩

/-- The word in `EXL` moves on to `MEML` with its result, when no control instruction is ahead of it there (R93). -/
theorem step_meml {t : State} (h : step s = .next t) (hctrl : ¬ s.ctrlInMem) (hocc : s.exOccupied = true)
    (hex : s.exStalled = false) :
    t.memOccupied = true ∧ t.meml =
      { ir := s.exl.ir, pc := s.exl.pc, alu := (result s.exInstr s).1, cond := (result s.exInstr s).2 } := by
  obtain ⟨-, w, m, e, d, hw, hm, he, hd, rfl⟩ := step_eq_next.1 h
  obtain ⟨hwb, hwst⟩ := ready_at_mem hst hw
  have hwctrl : ¬ w.ctrlInMem := by rw [wbStage_frame hw]; exact hctrl
  obtain ⟨hmocc, hmw⟩ := memStage_frame_of_not_ctrl hm hwctrl hwst hwb
  have hready : m.exOccupied = true ∧ m.exStalled = false ∧ m.memStalled = false := by
    rw [hmw, wbStage_frame hw]; exact ⟨hocc, hex, hst.1⟩
  have hexl : m.exl = s.exl := by rw [hmw, wbStage_frame hw]; rfl
  have hpc : m.pc = s.pc := by rw [hmw, wbStage_frame hw]; rfl
  have hcfg : m.cfg = s.cfg := by rw [hmw, wbStage_frame hw]; rfl
  rw [ifStage_frame d, idStage_frame hd]
  rcases exStage_inv he with ⟨hidle, -⟩ | ⟨-, -, -, -, rfl⟩
  · simp [hready, hmocc] at hidle
  · have hres : result m.exInstr (m.atStage .ex) = result s.exInstr s := by
      rw [State.exInstr, hexl]; exact result_congr (s := m.atStage .ex) hexl hpc hcfg _
    refine ⟨rfl, ?_⟩
    rw [hres, ← hexl]
    rfl

end

/-! ## A STORE passing alone (R142) -/

/-- `s` with the byte `val` at `a` in its Data Store, one more data instruction counted and nothing in flight. -/
def afterStore (s : State) (a val : Byte) : State :=
  { drainedOf s with dmem := (s.memWrite a val).dmem, stats := counted s.cfg s.stats (some .data) }

theorem afterStore_memRead {s : State} (hwf : Memory.wf s.dmem = true) (a val a' : Byte) :
    (afterStore s a val).memRead a' = if a = a' then val else s.memRead a' :=
  (memRead_congr rfl a').trans (memRead_memWrite s a a' val hwf)

/-- A STORE has, through MEM, written its byte and reached `WBL`, and otherwise changed no more than the contents of the latches
it passed. -/
theorem throughMem_of_store (s : State) (v b : RegIdx) (imm4 : BitVec 4) :
    s.throughMem (.store v b imm4) = { drainedOf s with
      dmem := (s.memWrite (effectiveAddress s.cfg (s.x b) imm4) (s.x v)).dmem
      exl := (s.throughMem (.store v b imm4)).exl
      meml := (s.throughMem (.store v b imm4)).meml
      wbl := (s.throughMem (.store v b imm4)).wbl
      wbOccupied := true
      stage := .mem } := by
  simp only [State.throughMem, State.memActed]
  simp [State.throughEx, State.issued, dst, isControl, instrClass, result, operands, drainedOf, State.toWb, State.consumeMem,
    State.toMem, State.atStage, State.memWrite, State.x]

/-- A STORE neither of whose registers is busy leaves the value register's byte at its effective address. -/
theorem leaves_afterStore {s : State} {v b : RegIdx} (imm4 : BitVec 4) (hv : s.isBusy v = false) (hb : s.isBusy b = false) :
    Leaves (.store v b imm4) s (afterStore s (effectiveAddress s.cfg (s.x b) imm4) (s.x v)) := by
  refine ⟨_, passes_of_free (hazard_two_free hv hb), ?_⟩
  have hretired : ∀ u : State, u.retired (.store v b imm4) = u.consumeWb.countClass .data := fun _ => rfl
  rw [hretired, countClass_eq_counted, throughMem_of_store]
  simp [meaningful, afterStore, drainedOf, State.consumeWb, State.atStage]

end Sys2Proof.Machine

/-! The statements on LOAD and STORE. -/

namespace Sys2Proof.Proofs

open Sys2Proof Sys2Proof.Machine Sys2Proof.Claims

/-- Settles O31: the byte written is the value register after the step, which `step_x` gives by whether WB writes it. -/
theorem storeSeesSameCycleWriteback : Obligations.StoreSeesSameCycleWriteback := by
  intro s v b imm4 ⟨_, hwf⟩ hhalt hocc hmem hwb hinstr
  obtain ⟨t, h⟩ := exists_step hhalt
  have hread : ∀ a, t.memRead a = if s.meml.alu = a then t.x v else s.memRead a := fun a =>
    (memRead_congr (step_dmem_of_store ⟨hmem, hwb⟩ h hocc hinstr) a).trans (memRead_memWrite s _ a _ hwf)
  refine ⟨t, h, ?_, fun a ha => by rw [hread, if_neg ha.symm]⟩
  rw [hread, if_pos rfl, step_x h v]
  simp [State.retires, hwb]

/-- Settles O33: in the first step the STORE writes and the LOAD moves into `MEML` with the address written; in the second the
LOAD reads that byte into `WBL`. -/
theorem loadBehindStoreReadsTheStoredByte : Obligations.LoadBehindStoreReadsTheStoredByte := by
  intro s v b d b' imm4 imm4' hinv ⟨_, hwf⟩ hocc hinstr hexocc hexinstr hea
  have hst := hinv.memWbNotStalled
  have hctrl : ¬ s.ctrlInMem := fun ⟨_, hc⟩ => by simp [hinstr, isControl, instrClass] at hc
  have hexst : s.exStalled = false := Bool.eq_false_iff.2 fun hx => hctrl (hinv.exStalled.1 hx)
  have hhalt : s.halted = false := Bool.eq_false_iff.2 fun hh => by
    obtain ⟨-, -, hmem, -⟩ := hinv.haltedDrained hh
    simp [hmem] at hocc
  obtain ⟨t, hstep⟩ := exists_step hhalt
  obtain ⟨htocc, htmeml⟩ := step_meml hst hstep hctrl hexocc hexst
  obtain ⟨-, -, hset, -⟩ := haltFlagsAreNeverCleared s t hstep
  have hthalt : t.halted = false := Bool.eq_false_iff.2 fun hh => by
    obtain ⟨-, hmem⟩ := hinv.haltYoungestWb (hset hh)
    simp [hmem] at hocc
  obtain ⟨u, hstep'⟩ := exists_step hthalt
  obtain ⟨huocc, huwbl⟩ := step_wbl (memWbNotStalled_kept.step hstep hst) hstep' htocc
  have htinstr : t.memInstr = .load d b' imm4' := by rw [State.memInstr, htmeml]; exact hexinstr
  have halu : t.meml.alu = s.meml.alu := by rw [htmeml, hexinstr]; exact hea
  refine ⟨t, u, hstep, hstep', huocc, by rw [huwbl, htmeml], ?_⟩
  calc u.wbl.val = t.memRead s.meml.alu := by rw [huwbl, htinstr, ← halu]; rfl
    _ = (s.memWrite s.meml.alu (t.x v)).memRead s.meml.alu := memRead_congr (step_dmem_of_store hst hstep hocc hinstr) _
    _ = t.x v := by rw [memRead_memWrite s _ _ _ hwf, if_pos rfl]

/-- Settles O16: LOAD is an instruction with a destination, and the value it carries from MEM is the byte read there. -/
theorem loadCompletes : Obligations.LoadCompletes := fun _ _ _ _ hb =>
  leaves_afterResult (hazard_one_free hb) rfl rfl rfl

/-- Settles O17: `leaves_afterStore`, and what that state's Data Store reads as. -/
theorem storeCompletes : Obligations.StoreCompletes := by
  intro s v b imm4 ⟨_, hwf⟩ hv hb ea
  refine ⟨afterStore s ea (s.x v), leaves_afterStore imm4 hv hb, ?_, fun a ha => ?_, rfl⟩
  · rw [afterStore_memRead hwf, if_pos rfl]
  · rw [afterStore_memRead hwf, if_neg ha.symm]

end Sys2Proof.Proofs

/-! SUPPORT. The branch target as arithmetic modulo 256 (R67, R150), and what EX computes as R93's `alu`, opcode by opcode. -/

namespace Sys2Proof.Machine

open Sys2Proof.Claims

theorem displacement_eq_two_mul (imm8 : BitVec 8) : displacement imm8 = 2#8 * imm8 := by
  unfold displacement
  bv_omega

theorem branchTarget_eq_ofNat (pc : Byte) (imm8 : BitVec 8) :
    branchTarget pc imm8 = BitVec.ofNat 8 (pc.toNat + 2 * imm8.toNat) := by
  simp [branchTarget, displacement_eq_two_mul, BitVec.ofNat_add, BitVec.ofNat_mul]

theorem branchTarget_eq_ofInt (pc : Byte) (imm8 : BitVec 8) :
    branchTarget pc imm8 = BitVec.ofInt 8 (pc.toInt + 2 * imm8.toInt) := by
  simp [branchTarget, displacement_eq_two_mul, BitVec.ofInt_add, BitVec.ofInt_mul]

/-- The shift drops bit 7 of `imm8` (R67). -/
theorem displacement_flip_bit7 (imm8 : BitVec 8) : displacement (imm8 ^^^ 0x80#8) = displacement imm8 := by
  simp [displacement, BitVec.shiftLeft_xor_distrib]

theorem displacement_eq_zero_iff (imm8 : BitVec 8) : displacement imm8 = 0 ↔ imm8 = 0x00#8 ∨ imm8 = 0x80#8 := by
  rw [displacement_eq_two_mul]
  bv_omega

/-- An address of `PC`'s parity is at an even distance from `PC`, and half that distance is an `imm8` that reaches it. -/
theorem exists_branchTarget_eq {pc t : Byte} (h : t.getLsbD 0 = pc.getLsbD 0) : ∃ k, branchTarget pc k = t := by
  have hparity : t.toNat % 2 = 1 ↔ pc.toNat % 2 = 1 := by simpa [BitVec.getLsbD] using h
  have hhalf : displacement ((t - pc) >>> 1) = t - pc := by
    unfold displacement
    bv_omega
  exact ⟨(t - pc) >>> 1, by rw [branchTarget, hhalf, add_sub_cancel]⟩

/-- For each opcode the instruction's result is the row of R93: a sum, difference or product modulo 256, a bitwise operation, an
address or a target. -/
theorem result_eq_aluN (s : State) : (result s.exInstr s).1 = aluN s := by
  obtain ⟨hdecode, -⟩ := Proofs.decodeFollowsTheNibbles s.exl.ir
  have hlt : opN s.exl.ir < 16 := op_toNat s.exl.ir ▸ s.exl.ir.op.isLt
  simp only [aluN, State.exInstr, hdecode]
  generalize opN s.exl.ir = k at hlt
  interval_cases k <;>
    simp [result, effectiveAddress, offset_eq_ofNat, beqzTarget, branchTarget_eq_ofNat, ofNat_sub_toNat, ofNat_not_toNat,
      BitVec.ofNat_add, BitVec.ofNat_mul, ← BitVec.toNat_inj]

end Sys2Proof.Machine

/-! SUPPORT. JMP and BEQZ: the state one leaves passing alone (R150 to R153), and the two cycles from `EXL` to its resolution
(R92 to R97, R155). -/

namespace Sys2Proof.Machine

open Sys2Proof.Claims

/-! ## A control instruction passing alone -/

/-- A control instruction has no destination and is no HALT; MEM resolves its target, and WB only counts it (R95, R98, R99). -/
theorem actions_of_control {i : Instr} (hi : isControl i = true) :
    dst i = none ∧ i ≠ .halt ∧ (∀ s : State, s.memActed i = s.consumeMem.resolve s.meml.alu) ∧
      ∀ s : State, s.retired i = s.consumeWb.countClass .ctrl := by
  cases i with
  | jmp imm8 => exact ⟨rfl, nofun, fun _ => rfl, fun _ => rfl⟩
  | beqz c imm8 => exact ⟨rfl, nofun, fun _ => rfl, fun _ => rfl⟩
  | _ => cases hi

/-- Its target is compared with the `PC` it started from, which no stage before MEM changes. -/
theorem leaves_afterControl {i : Instr} {s : State} {target : Byte} (hi : isControl i = true)
    (hfree : s.hazard (srcs i) = false) (htarget : (s.throughEx i).meml.alu = target) :
    Leaves i s (afterControl s target) := by
  obtain ⟨hdst, hhalt, hmem, hwb⟩ := actions_of_control hi
  have hpc : ((s.throughEx i).atStage .mem).consumeMem.pc = s.pc := rfl
  refine ⟨_, passes_of_free hfree, ?_⟩
  rw [hwb, countClass_eq_counted, State.throughMem, hmem, atStage_meml, htarget, State.resolve, hpc]
  by_cases hmatch : target = s.pc <;>
    simp [meaningful, afterControl, drainedOf, State.throughEx, State.issued, State.toMem, State.atStage, hdst, hi, hhalt,
      hmatch]

/-! ## From `EXL` to `MEML` -/

theorem exStage_of_empty {s t : State} (h : exStage s = .next t) (hs : s.exOccupied = false) : t = s := by
  rcases exStage_inv h with ⟨-, rfl⟩ | ⟨hocc, -⟩
  · rfl
  · simp [hs] at hocc

theorem idStage_of_empty {s t : State} (h : idStage s = .next t) (hs : s.idOccupied = false) : t = s := by
  rcases idStage_inv h with ⟨-, rfl⟩ | ⟨hocc, -⟩
  · rfl
  · simp [hs] at hocc

/-- A HALT is the youngest instruction in the pipeline (R106), so none is in flight ahead of a JMP or BEQZ in `EXL`. -/
theorem haltSeen_of_ctrlInEx {s : State} (hinv : PipelineInv s) (hctrl : s.ctrlInEx) : s.haltSeen = false := by
  obtain ⟨hocc, hi⟩ := hctrl
  refine Bool.eq_false_iff.2 fun hseen => ?_
  rcases hinv.haltSeen.1 hseen with ⟨-, hex⟩ | hmem | hwb | hhalted
  · rw [hex] at hi
    cases hi
  · simp [hinv.haltYoungestMem hmem] at hocc
  · simp [hinv.haltYoungestWb hwb] at hocc
  · simp [hinv.haltedDrained hhalted] at hocc

/-- EX hands the target to `MEML`, while the control stall keeps ID and IF idle (R87, R88, R93). -/
theorem step_of_ctrlInEx {s t : State} (h : step s = .next t) (hinv : PipelineInv s) (hctrl : s.ctrlInEx) :
    t.memOccupied = true ∧
    t.meml = { ir := s.exl.ir, pc := s.exl.pc, alu := (result s.exInstr s).1, cond := (result s.exInstr s).2 } ∧
    t.exOccupied = false ∧ t.idOccupied = false ∧ t.pc = s.pc ∧ t.ifOccupied = s.ifOccupied := by
  have hexocc : s.exOccupied = true := hctrl.1
  have hst := hinv.memWbNotStalled
  have hmemctrl : ¬ s.ctrlInMem := fun hc => by simp [hinv.ctrlInMemAlone hc] at hexocc
  have hexst : s.exStalled = false := Bool.eq_false_iff.2 fun hx => hmemctrl (hinv.exStalled.1 hx)
  have hidst : s.idStalled = true := hinv.idStalled.2 (.inl hctrl)
  obtain ⟨hocc, hmeml⟩ := step_meml hst h hmemctrl hexocc hexst
  refine ⟨hocc, hmeml, ?_⟩
  obtain ⟨-, w, m, e, d, hw, hm, he, hd, rfl⟩ := step_eq_next.1 h
  obtain ⟨hwb, hwst⟩ := ready_at_mem hst hw
  obtain ⟨hmocc, hmw⟩ := memStage_frame_of_not_ctrl hm (by rw [wbStage_frame hw]; exact hmemctrl) hwst hwb
  obtain ⟨heid, heidst, hkept⟩ :
      e.idOccupied = false ∧ e.idStalled = true ∧ e.pc = s.pc ∧ e.ifOccupied = s.ifOccupied := by
    rw [exStage_frame he, hmw, wbStage_frame hw]
    exact ⟨hinv.stalledIdEmpty hidst, hidst, rfl, rfl⟩
  obtain rfl := idStage_of_empty hd heid
  have hidle : ifStage d = d := by simp [ifStage, heidst]
  rw [hidle] at hocc ⊢
  refine ⟨?_, heid, hkept⟩
  rcases exStage_inv he with ⟨-, rfl⟩ | ⟨-, -, -, -, rfl⟩
  · simp [hmocc] at hocc
  · rfl

/-! ## The resolution -/

/-- With nothing in the latches behind the JMP or BEQZ that MEM resolves, EX and ID have nothing to do. -/
theorem step_of_ctrlInMem {s t : State} (h : step s = .next t) (hst : s.memStalled = false ∧ s.wbStalled = false)
    (hctrl : s.ctrlInMem) (hex : s.exOccupied = false) (hid : s.idOccupied = false) :
    ∃ w v, wbStage s.rest = .next w ∧
      t = (ifStage (((w.atStage .mem).consumeMem.resolve s.meml.alu).toWb v)).countCycle.rest := by
  obtain ⟨hocc, hi⟩ := hctrl
  obtain ⟨-, -, hmem, -⟩ := actions_of_control hi
  obtain ⟨-, w, m, e, d, hw, hm, he, hd, rfl⟩ := step_eq_next.1 h
  obtain ⟨hwex, hwid⟩ : w.exOccupied = false ∧ w.idOccupied = false := by
    rw [wbStage_frame hw]
    exact ⟨hex, hid⟩
  have hmex : m.exOccupied = false := Bool.eq_false_iff.2 fun hx => by simpa [hwex] using memStage_exOccupied hm hx
  have hmid : m.idOccupied = false := Bool.eq_false_iff.2 fun hx => by simpa [hwid] using memStage_idOccupied hm hx
  obtain rfl := exStage_of_empty he hmex
  obtain rfl := idStage_of_empty hd hmid
  rw [memStage_acts hst hw hm hocc, hmem, ← (meml_dmem_at_mem hw).1]
  exact ⟨w, _, hw, rfl⟩

/-- That cycle releases the control stall; on a match it fetches the word at `PC` (R96), on a difference `PC` becomes the target
and nothing is fetched (R97). -/
theorem step_resolves {s t : State} (h : step s = .next t) (hst : s.memStalled = false ∧ s.wbStalled = false)
    (hctrl : s.ctrlInMem) (hex : s.exOccupied = false) (hid : s.idOccupied = false) (hif : s.ifOccupied = true) :
    t.memOccupied = false ∧ t.exOccupied = false ∧ t.idStalled = false ∧ t.exStalled = false ∧
    (s.meml.alu = s.pc → t.idOccupied = true ∧ t.idl = { ir := s.fetchWord s.pc, pc := s.pc } ∧ t.pc = s.pc + 2) ∧
    (s.meml.alu ≠ s.pc → t.idOccupied = false ∧ t.pc = s.meml.alu) := by
  obtain ⟨w, v, hw, rfl⟩ := step_of_ctrlInMem h hst hctrl hex hid
  obtain ⟨hwex, hwid, hwif, hwfl, hwpc, hword⟩ : w.exOccupied = false ∧ w.idOccupied = false ∧ w.ifOccupied = true ∧
      w.flushed = false ∧ w.pc = s.pc ∧ w.fetchWord s.pc = s.fetchWord s.pc := by
    rw [wbStage_frame hw]
    exact ⟨hex, hid, hif, rfl, rfl, rfl⟩
  by_cases hmatch : s.meml.alu = s.pc
  · have hfetch : ifStage ((w.atStage .mem).consumeMem.resolveMatch.toWb v) =
        ((w.atStage .mem).consumeMem.resolveMatch.toWb v).fetch := by simp [ifStage, hwid, hwif, hwfl]
    rw [resolve_match (w.atStage .mem).consumeMem (hmatch.trans hwpc.symm), hfetch, ← hword, ← hwpc]
    exact ⟨rfl, hwex, rfl, rfl, fun _ => ⟨rfl, rfl, rfl⟩, fun hne => absurd (hmatch.trans hwpc.symm) hne⟩
  · have hidle : ifStage (((w.atStage .mem).consumeMem.flush s.meml.alu).toWb v) =
        ((w.atStage .mem).consumeMem.flush s.meml.alu).toWb v := by simp [ifStage]
    rw [resolve_differ (w.atStage .mem).consumeMem fun heq => hmatch (heq.trans hwpc), hidle]
    exact ⟨rfl, rfl, rfl, rfl, fun heq => absurd heq hmatch, fun _ => ⟨rfl, rfl⟩⟩

end Sys2Proof.Machine

/-! The statements on control transfer. -/

namespace Sys2Proof.Proofs

open Sys2Proof Sys2Proof.Machine Sys2Proof.Claims

/-- Settles O35: `step_of_ctrlInEx`, then `step_resolves`. No HALT has issued, so neither state is halted and fetch is
enabled. -/
theorem controlInstructionResolvesInTwoCycles : Obligations.ControlInstructionResolvesInTwoCycles := by
  intro s hinv hctrl
  have hseen := haltSeen_of_ctrlInEx hinv hctrl
  have hno : ¬ (s.haltInEx ∨ s.haltInMem ∨ s.haltInWb ∨ s.halted = true) := fun hh => by simp [hinv.haltSeen.2 hh] at hseen
  obtain ⟨t, hstep⟩ := exists_step (Bool.eq_false_iff.2 fun hh => hno (.inr (.inr (.inr hh))))
  obtain ⟨-, -, hset, -⟩ := haltFlagsAreNeverCleared s t hstep
  obtain ⟨u, hstep'⟩ := exists_step (Bool.eq_false_iff.2 fun hh => hno (.inr (.inr (.inl (hset hh)))))
  obtain ⟨hocc, hmeml, hex, hid, hpc, hif⟩ := step_of_ctrlInEx hstep hinv hctrl
  have hmemctrl : t.ctrlInMem := ⟨hocc, by rw [State.memInstr, hmeml]; exact hctrl.2⟩
  have hfetches : t.ifOccupied = true := hif.trans (by simpa [hseen] using hinv.haltStopsFetch)
  have hst := memWbNotStalled_kept.step hstep hinv.memWbNotStalled
  have halu : t.meml.alu = aluN s := by rw [hmeml, ← result_eq_aluN]
  obtain ⟨-, -, hword⟩ := instructionStoreNeverChanges s t hstep
  obtain ⟨huocc, huwbl⟩ := step_wbl hst hstep' hocc
  have hresolved := step_resolves hstep' hst hmemctrl hex hid hfetches
  rw [halu, hpc, hword] at hresolved
  exact ⟨t, u, hstep, hstep', hmemctrl, hpc, hid, hex, halu, huocc, by rw [huwbl, hmeml], hresolved⟩

/-- Settles O18: `leaves_afterControl`, with the target EX computes from `PC` and, for BEQZ, from the condition register as ID
read it. -/
theorem controlInstructionsComplete : Obligations.ControlInstructionsComplete := by
  intro s c imm8 target
  have htarget : branchTarget s.pc imm8 = target := branchTarget_eq_ofNat s.pc imm8
  have hbeqz : (s.throughEx (.beqz c imm8)).meml.alu = if s.x c = 0 then target else s.pc := by rw [← htarget]; rfl
  exact ⟨leaves_afterControl rfl rfl htarget, fun hc => leaves_afterControl rfl (hazard_one_free hc) hbeqz⟩

/-- Settles O22: the target is `PC` plus twice `imm8` under either reading, and it is `PC` when the displacement is 0. -/
theorem branchTargetWrapsModulo256 : Obligations.BranchTargetWrapsModulo256 := by
  intro pc imm8
  refine ⟨branchTarget_eq_ofNat pc imm8, branchTarget_eq_ofInt pc imm8, ?_, fun t => exists_branchTarget_eq, ?_⟩
  · rw [branchTarget, displacement_flip_bit7, branchTarget]
  · rw [← displacement_eq_zero_iff, branchTarget, add_eq_left]

end Sys2Proof.Proofs

/-! SUPPORT. HALT and the undefined opcodes passing alone (R160, R161): of all instructions, those that read no register and are
no control instructions. -/

namespace Sys2Proof.Machine

open Sys2Proof.Claims

/-- `s` with nothing in flight, after an `i` that acts on no register, byte or target: it is counted in its class, if it has one,
and a HALT disables fetch and decode and sets `halted`. -/
def afterNoOperand (s : State) (i : Instr) : State :=
  { drainedOf s with
    haltSeen := decide (i = .halt) || s.haltSeen
    ifOccupied := !decide (i = .halt) && s.ifOccupied
    halted := decide (i = .halt) || s.halted
    stats := counted s.cfg s.stats (instrClass i) }

/-- Such an instruction has no destination either, and MEM changes nothing before it deposits. -/
theorem passive_of_noOperand {i : Instr} (hsrcs : srcs i = []) (hctrl : isControl i = false) :
    dst i = none ∧ ∀ s : State, s.memActed i = s.consumeMem := by
  cases i with
  | undef12 | undef13 | undef14 | halt => exact ⟨rfl, fun _ => rfl⟩
  | jmp imm8 => cases hctrl
  | _ => cases hsrcs

/-- An instruction without a destination retires by being counted, and a HALT sets `halted` (R98, R99). -/
theorem retired_of_no_dst {i : Instr} (hdst : dst i = none) (s : State) :
    s.retired i = { s.consumeWb with
      halted := decide (i = .halt) || s.halted, stats := counted s.cfg s.stats (instrClass i) } := by
  cases hclass : instrClass i with
  | none => simp [State.retired, hdst, hclass, counted]
  | some c => simp [State.retired, hdst, hclass, countClass_eq_counted]

/-- With no source it never waits; it charges no stall in ID, MEM passes it on, and WB only counts it. -/
theorem leaves_afterNoOperand {i : Instr} (hsrcs : srcs i = []) (hctrl : isControl i = false) (s : State) :
    Leaves i s (afterNoOperand s i) := by
  obtain ⟨hdst, hmem⟩ := passive_of_noOperand hsrcs hctrl
  have hfree : s.hazard (srcs i) = false := by rw [hsrcs]; rfl
  refine ⟨_, passes_of_free hfree, ?_⟩
  rw [retired_of_no_dst hdst, State.throughMem, hmem]
  simp [meaningful, afterNoOperand, drainedOf, State.throughEx, State.issued, State.toMem, State.consumeMem, State.toWb,
    State.consumeWb, State.atStage, hdst, hctrl]

end Sys2Proof.Machine

/-! The statement on HALT and the undefined opcodes. -/

namespace Sys2Proof.Proofs

open Sys2Proof Sys2Proof.Machine Sys2Proof.Claims

/-- Settles O19: `leaves_afterNoOperand`; only for HALT does the state it leaves differ from the drained one. -/
theorem haltAndUndefinedOpcodesComplete : Obligations.HaltAndUndefinedOpcodesComplete := fun s =>
  ⟨leaves_afterNoOperand rfl rfl s, leaves_afterNoOperand rfl rfl s, leaves_afterNoOperand rfl rfl s,
    leaves_afterNoOperand rfl rfl s⟩

end Sys2Proof.Proofs

/-! SUPPORT. One cycle from a state of the pipeline invariant: what the front of the pipeline does in it (R87 to R92), as
conditions on the state before it, and where every latch, stall flag and busy bit is after it (R100 to R103, R106). -/

namespace Sys2Proof.Machine

open Sys2Proof.Claims

/-! ## What the cycle that begins in a state does -/

/-- `r` is busy when ID looks at it: WB comes first, and may clear it (R13, R80). -/
def State.busyAtId (s : State) (r : RegIdx) : Bool := s.isBusy r && !(s.wbOccupied && decide (dst s.wbInstr = some r))

/-- The instruction in `IDL` waits for an operand (R90), or it issues (R91). -/
def State.waits (s : State) : Bool := s.idOccupied && (srcs s.idInstr).any s.busyAtId
def State.issues (s : State) : Bool := s.idOccupied && !(srcs s.idInstr).any s.busyAtId

/-- A JMP or BEQZ issues, and takes the control stall; a HALT issues, and stops fetching (R92). -/
def State.issuesControl (s : State) : Bool := s.issues && isControl s.idInstr
def State.issuesHalt (s : State) : Bool := s.issues && decide (s.idInstr = .halt)

/-- A word is fetched (R87): fetch is enabled, no flush happens, `IDL` is free, and no control stall is held. -/
def State.fetches (s : State) : Bool :=
  (s.ifOccupied && !s.issuesHalt) && !s.branchFlushes && !s.waits && !(decide s.ctrlInEx || s.issuesControl)

section
variable {s : State}

theorem busyAtId_iff (r : RegIdx) :
    s.busyAtId r = true ↔ s.isBusy r = true ∧ ¬ (s.wbOccupied = true ∧ dst s.wbInstr = some r) := by
  cases hocc : s.wbOccupied <;> simp [State.busyAtId, hocc]

theorem idOccupied_of_waits (h : s.waits = true) : s.idOccupied = true := (Bool.and_eq_true_iff.1 h).1
theorem idOccupied_of_issues (h : s.issues = true) : s.idOccupied = true := (Bool.and_eq_true_iff.1 h).1
theorem issues_of_issuesControl (h : s.issuesControl = true) : s.issues = true := (Bool.and_eq_true_iff.1 h).1
theorem issues_of_issuesHalt (h : s.issuesHalt = true) : s.issues = true := (Bool.and_eq_true_iff.1 h).1

theorem not_waits_of_issues (h : s.issues = true) : s.waits = false := by
  simp only [State.issues, Bool.and_eq_true, Bool.not_eq_true'] at h
  simp [State.waits, h]

theorem idle_of_idEmpty (hid : s.idOccupied = false) : s.waits = false ∧ s.issues = false := by
  simp [State.waits, State.issues, hid]

theorem not_flushes (h : ¬ s.ctrlInMem) : s.branchFlushes = false := by simp [State.branchFlushes, h]

theorem not_fetches_of_waits (h : s.waits = true) : s.fetches = false := by simp [State.fetches, h]
theorem not_fetches_of_issuesControl (h : s.issuesControl = true) : s.fetches = false := by simp [State.fetches, h]
theorem not_fetches_of_issuesHalt (h : s.issuesHalt = true) : s.fetches = false := by simp [State.fetches, h]

theorem of_fetches (h : s.fetches = true) : s.branchFlushes = false ∧ s.waits = false := by
  simp only [State.fetches, Bool.and_eq_true, Bool.not_eq_true'] at h
  obtain ⟨⟨⟨-, hflush⟩, hwaits⟩, -⟩ := h
  exact ⟨hflush, hwaits⟩

/-- The instruction in `IDL` waits or issues, and not both. -/
theorem idOccupied_split (p : Instr → Bool) :
    (s.idOccupied && p s.idInstr).toNat = (s.waits && p s.idInstr).toNat + (s.issues && p s.idInstr).toNat := by
  cases hany : (srcs s.idInstr).any s.busyAtId <;> simp [State.waits, State.issues, hany]

theorem idOccupied_toNat : s.idOccupied.toNat = s.waits.toNat + s.issues.toNat := by
  simpa using idOccupied_split (s := s) fun _ => true

end

/-! ## Which of these exclude each other, by the pipeline invariant -/

section
variable {s : State}

/-- Nothing is behind a HALT (R106). -/
theorem idle_of_haltSeen (hinv : PipelineInv s) (h : s.haltSeen = true) :
    s.waits = false ∧ s.issues = false ∧ s.fetches = false := by
  obtain ⟨hwaits, hissues⟩ := idle_of_idEmpty (hinv.haltSeenIdEmpty h)
  exact ⟨hwaits, hissues, by simp [State.fetches, hinv.haltStopsFetch.1 h]⟩

/-- Nothing is behind a JMP or BEQZ in `EXL`, and none is ahead of it (R102, R103). -/
theorem idle_of_ctrlInEx (hinv : PipelineInv s) (h : s.ctrlInEx) :
    s.waits = false ∧ s.issues = false ∧ s.fetches = false ∧ s.branchFlushes = false := by
  obtain ⟨hwaits, hissues⟩ := idle_of_idEmpty (hinv.stalledIdEmpty (hinv.idStalled.2 (.inl h)))
  refine ⟨hwaits, hissues, by simp [State.fetches, h], not_flushes fun hmem => ?_⟩
  exact absurd h.1 (by simp [hinv.ctrlInMemAlone hmem])

/-- Ahead of an instruction in `IDL` there is neither a HALT nor an unresolved JMP or BEQZ. -/
theorem free_of_idOccupied (hinv : PipelineInv s) (h : s.idOccupied = true) :
    s.haltSeen = false ∧ ¬ s.ctrlInEx ∧ ¬ s.ctrlInMem := by
  have hst : ¬ s.idStalled = true := fun hs => by simp [hinv.stalledIdEmpty hs] at h
  rw [hinv.idStalled, not_or] at hst
  exact ⟨Bool.eq_false_iff.2 fun hs => by simp [hinv.haltSeenIdEmpty hs] at h, hst⟩

end

/-! ## The cycle stage by stage -/

section
variable {s w m e : State} (hst : s.memStalled = false ∧ s.wbStalled = false) (hw : wbStage s.rest = .next w)
  (hm : memStage w = .next m)
include hst hw hm

theorem wbl_after_mem :
    m.wbOccupied = s.memOccupied ∧ (s.memOccupied = true → m.wbl.ir = s.meml.ir ∧ m.wbl.pc = s.meml.pc) := by
  have hfrom : m.wbOccupied = true → s.memOccupied = true ∧ m.wbl.ir = s.meml.ir ∧ m.wbl.pc = s.meml.pc := fun h => by
    rcases (memStage_latches hm).2 h with ⟨hwb, -⟩ | hmem
    · simp [(ready_at_mem hst hw).1] at hwb
    · rw [wbStage_frame hw] at hmem
      exact hmem
  have hto : s.memOccupied = true → m.wbOccupied = true := fun h => by rw [memStage_acts hst hw hm h]; rfl
  exact ⟨Bool.eq_iff_iff.2 ⟨fun h => (hfrom h).1, hto⟩, fun h => (hfrom (hto h)).2⟩

variable (he : exStage m = .next e)
include he

theorem isBusy_at_id (r : RegIdx) : e.isBusy r = s.busyAtId r := by
  have hwb : w.isBusy r = if s.retires = true ∧ dst s.wbInstr = some r then false else s.isBusy r := wbStage_isBusy hw r
  rw [isBusy_congr (busy_at_id hm he), hwb, State.busyAtId, State.retires, hst.2]
  cases s.wbOccupied <;> by_cases hd : dst s.wbInstr = some r <;> simp [hd]

theorem hazard_at_id (l : List RegIdx) : e.hazard l = l.any s.busyAtId := by
  simp only [State.hazard, funext (isBusy_at_id hst hw hm he)]

theorem halted_at_id (hrun : s.halted = false) : e.halted = decide s.haltInWb := by
  have hwb : w.halted = (s.halted || s.retires && decide (s.wbInstr = .halt)) := wbStage_halted (s := s.rest) hw
  rw [exStage_frame he, memStage_frame hm]
  simp [hwb, hrun, State.retires, hst.2]

end

/-- MEM has passed its instruction on, and has resolved a JMP or BEQZ (R95 to R97). -/
structure AfterMem (s m : State) : Prop where
  wb : m.wbOccupied = s.memOccupied ∧ (s.memOccupied = true → m.wbl.ir = s.meml.ir ∧ m.wbl.pc = s.meml.pc)
  memEmpty : m.memOccupied = false
  younger : m.exOccupied = s.exOccupied ∧ m.idOccupied = s.idOccupied
  exStalled : m.exStalled = false
  idStalled : m.idStalled = decide s.ctrlInEx
  flushed : m.flushed = s.branchFlushes
  pc : m.pc = if s.branchFlushes = true then s.meml.alu else s.pc

/-- A JMP or BEQZ that MEM resolves has nothing behind it, so its flush discards nothing (R102). -/
theorem afterMem_of_ctrl {s w m : State} (hinv : PipelineInv s) (hctrl : s.ctrlInMem) (hw : wbStage s.rest = .next w)
    (hm : memStage w = .next m) : AfterMem s m := by
  have hst := hinv.memWbNotStalled
  have hwbl := wbl_after_mem hst hw hm
  have hex := hinv.ctrlInMemAlone hctrl
  have hid := hinv.stalledIdEmpty (hinv.idStalled.2 (.inr hctrl))
  obtain ⟨-, -, hact, -⟩ := actions_of_control hctrl.2
  obtain ⟨hwex, hwid, hwfl, hwpc, hmeml⟩ :
      w.exOccupied = false ∧ w.idOccupied = false ∧ w.flushed = false ∧ w.pc = s.pc ∧ w.meml = s.meml := by
    rw [wbStage_frame hw]
    exact ⟨hex, hid, rfl, rfl, rfl⟩
  rw [memStage_acts hst hw hm hctrl.1, hact] at hwbl ⊢
  by_cases hpc : w.meml.alu = w.pc
  · have hfl : s.branchFlushes = false := by simp [State.branchFlushes, ← hmeml, ← hwpc, hpc]
    rw [atStage_meml, resolve_match (w.atStage .mem).consumeMem hpc] at hwbl ⊢
    constructor <;> simp [*]
  · have hfl : s.branchFlushes = true := by simp [State.branchFlushes, hctrl, ← hmeml, ← hwpc, hpc]
    rw [atStage_meml, resolve_differ (w.atStage .mem).consumeMem hpc] at hwbl ⊢
    constructor <;> simp [*]

theorem afterMem {s w m : State} (hinv : PipelineInv s) (hw : wbStage s.rest = .next w) (hm : memStage w = .next m) :
    AfterMem s m := by
  by_cases hctrl : s.ctrlInMem
  · exact afterMem_of_ctrl hinv hctrl hw hm
  · have hst := hinv.memWbNotStalled
    obtain ⟨hwb, hwst⟩ := ready_at_mem hst hw
    have hwctrl : ¬ w.ctrlInMem := by rw [wbStage_frame hw]; exact hctrl
    have hex : s.exStalled = false := Bool.eq_false_iff.2 fun h => hctrl (hinv.exStalled.1 h)
    have hid : s.idStalled = decide s.ctrlInEx := Bool.eq_iff_iff.2 (by simpa [hctrl] using hinv.idStalled)
    have hfl : s.branchFlushes = false := not_flushes hctrl
    obtain ⟨hmem, hframe⟩ := memStage_frame_of_not_ctrl hm hwctrl hwst hwb
    refine ⟨wbl_after_mem hst hw hm, hmem, ?_, ?_, ?_, ?_, ?_⟩ <;> rw [hframe, wbStage_frame hw] <;> simp [*]

/-- The instructions in `EXL` and `MEML` are one latch further, and EX stalls behind a JMP or BEQZ (R93 to R95, R101). -/
structure MovesOn (s t : State) : Prop where
  wb : t.wbOccupied = s.memOccupied ∧ (s.memOccupied = true → t.wbl.ir = s.meml.ir ∧ t.wbl.pc = s.meml.pc)
  mem : t.memOccupied = s.exOccupied ∧ (s.exOccupied = true → t.meml.ir = s.exl.ir ∧ t.meml.pc = s.exl.pc)
  exStalled : t.exStalled = decide s.ctrlInEx

/-- The older stages have acted, and ID can issue unless the control stall is held. -/
structure AtId (s e : State) : Prop extends MovesOn s e where
  exEmpty : e.exOccupied = false
  id : e.idOccupied = s.idOccupied
  idStalled : e.idStalled = decide s.ctrlInEx
  flushed : e.flushed = s.branchFlushes
  pc : e.pc = if s.branchFlushes = true then s.meml.alu else s.pc

theorem atId {s w m e : State} (hinv : PipelineInv s) (hw : wbStage s.rest = .next w) (hm : memStage w = .next m)
    (he : exStage m = .next e) : AtId s e := by
  obtain ⟨hwb, hmem, ⟨hex, hid⟩, hexst, hidst, hfl, hpc⟩ := afterMem hinv hw hm
  have hmst : m.memStalled = false := (memWbNotStalled_kept.mem hm (memWbNotStalled_kept.wb hw hinv.memWbNotStalled)).1
  have hexl : m.exl = s.exl := by rw [memStage_frame hm, wbStage_frame hw]; rfl
  have hinstr : m.exInstr = s.exInstr := congrArg (fun l : ExLatch => decode l.ir) hexl
  rcases exStage_inv he with ⟨hidle, rfl⟩ | ⟨hocc, -, -, -, rfl⟩
  · have hempty : e.exOccupied = false := by simpa [hexst, hmem, hmst] using hidle
    have hsex : s.exOccupied = false := hex.symm.trans hempty
    exact ⟨⟨hwb, ⟨by rw [hmem, hsex], by simp [hsex]⟩, by simp [hexst, hsex]⟩, hempty, hid, hidst, hfl, hpc⟩
  · have hsex : s.exOccupied = true := hex.symm.trans hocc
    exact ⟨⟨hwb, ⟨hsex.symm, fun _ => by rw [← hexl]; exact ⟨rfl, rfl⟩⟩, by simp [hexst, hsex, hinstr]⟩, rfl, hid, hidst,
      hfl, hpc⟩

/-- ID has issued the instruction in `IDL`, or has left it to wait (R88 to R92). -/
structure Decodes (s t : State) : Prop where
  ex : t.exOccupied = s.issues ∧ (s.issues = true → t.exl.ir = s.idl.ir ∧ t.exl.pc = s.idl.pc)
  idStalled : t.idStalled = (decide s.ctrlInEx || s.issuesControl)
  haltSeen : t.haltSeen = (s.haltSeen || s.issuesHalt)
  ifOccupied : t.ifOccupied = (s.ifOccupied && !s.issuesHalt)
  busy : ∀ r, t.isBusy r = (s.busyAtId r || s.issues && decide (dst s.idInstr = some r))

theorem afterId {s w m e d : State} (hinv : PipelineInv s) (hw : wbStage s.rest = .next w) (hm : memStage w = .next m)
    (he : exStage m = .next e) (hd : idStage e = .next d) :
    d.idOccupied = s.waits ∧ Decodes s d ∧ d.stats = { e.stats with
      dataStalls := if s.waits = true then countUp e.cfg e.stats.dataStalls 1 else e.stats.dataStalls
      ctrlStalls := if s.issuesControl = true then countUp e.cfg e.stats.ctrlStalls 2 else e.stats.ctrlStalls } := by
  obtain ⟨⟨-, -, hexst⟩, hex, hid, hidst, -, -⟩ := atId hinv hw hm he
  have hst := hinv.memWbNotStalled
  have hidl := idl_at_id hw hm he
  have hinstr := idInstr_at_id hw hm he
  have hseen := haltSeen_at_id hw hm he
  have hif := ifOccupied_at_id hw hm he
  have hbusy := isBusy_at_id hst hw hm he
  rcases idStage_inv hd with ⟨hidle, rfl⟩ | ⟨hocc, -, -, -, -, ⟨hz, rfl⟩ | ⟨hz, rfl⟩⟩
  · have hempty : s.idOccupied = false := by
      by_contra hocc
      obtain ⟨hnoHalt, hnoCtrl, -⟩ := free_of_idOccupied hinv (by simpa using hocc)
      simp [hid, hidst, hseen, hex, hexst, hnoHalt, decide_eq_false hnoCtrl, hocc] at hidle
    obtain ⟨hwaits, hissues⟩ := idle_of_idEmpty hempty
    refine ⟨by simp [*], ?_, by simp [State.issuesControl, *]⟩
    constructor <;> simp [State.issuesControl, State.issuesHalt, *]
  · rw [hazard_at_id hst hw hm he, hinstr] at hz
    have hsocc : s.idOccupied = true := hid.symm.trans hocc
    have hwaits : s.waits = true := by simp [State.waits, hz, hsocc]
    have hissues : s.issues = false := by simp [State.issues, hz]
    have hbusy' : ∀ r, (e.atStage .id).countDataStall.isBusy r = s.busyAtId r := hbusy
    refine ⟨by simp [*], ?_, by simp [State.issuesControl, *]⟩
    constructor <;> simp [State.issuesControl, State.issuesHalt, *]
  · rw [hazard_at_id hst hw hm he, hinstr] at hz
    have hwaits : s.waits = false := by simp [State.waits, hz]
    have hissues : s.issues = true := by simp [State.issues, hz, ← hid, hocc]
    refine ⟨hwaits.symm, ⟨⟨hissues.symm, fun _ => by rw [← hidl]; exact ⟨rfl, rfl⟩⟩, ?_, ?_, ?_, fun r => ?_⟩, ?_⟩
    · simp [State.issued, State.issuesControl, hissues, hinstr, hidst, Bool.or_comm]
    · simp [State.issued, State.issuesHalt, hissues, hinstr, hseen, Bool.or_comm]
    · simp [State.issued, State.issuesHalt, hissues, hinstr, hif, Bool.and_comm]
    · rw [issued_isBusy, atStage_isBusy, hbusy, hinstr, hissues]
      by_cases hd : dst s.idInstr = some r <;> simp [hd]
    · by_cases hc : isControl s.idInstr = true <;> simp [State.issued, State.issuesControl, hissues, hwaits, hinstr, hc]

/-! ## The whole cycle -/

/-- What one cycle does to the pipeline: each instruction moves on by one latch but for one that waits in `IDL`, and `IDL` is
filled by the fetch (R87, R101, R103). -/
structure Advances (s t : State) : Prop extends MovesOn s t, Decodes s t where
  resting : t.stage = .wb ∧ t.flushed = false
  memWbNotStalled : t.memStalled = false ∧ t.wbStalled = false
  id : t.idOccupied = (s.waits || s.fetches) ∧ (s.waits = true → t.idl = s.idl) ∧ (s.fetches = true → t.idl.pc = s.pc)
  pc : t.pc = if s.branchFlushes = true then s.meml.alu else if s.fetches = true then s.pc + 2 else s.pc
  halted : t.halted = decide s.haltInWb

theorem MovesOn.idStage {s e d : State} (h : MovesOn s e) (hd : idStage e = .next d) : MovesOn s d := by
  rw [idStage_frame hd]
  exact ⟨h.wb, h.mem, h.exStalled⟩

theorem MovesOn.ifStage {s d : State} (h : MovesOn s d) : MovesOn s (ifStage d).countCycle.rest := by
  rw [ifStage_frame d]
  exact ⟨h.wb, h.mem, h.exStalled⟩

theorem Decodes.ifStage {s d : State} (h : Decodes s d) : Decodes s (ifStage d).countCycle.rest := by
  rw [ifStage_frame d]
  exact ⟨h.ex, h.idStalled, h.haltSeen, h.ifOccupied, h.busy⟩

theorem ifStage_eq (s : State) :
    ifStage s = if (s.ifOccupied && !s.flushed && !s.idOccupied && !s.idStalled) = true then s.fetch else s := by
  rcases ifStage_cases s with ⟨h | h | h | h, hif⟩ | ⟨h1, h2, h3, h4, hif⟩ <;> rw [hif] <;> simp [*]

theorem advances_of_step {s t : State} (hinv : PipelineInv s) (h : step s = .next t) : Advances s t := by
  have hst := memWbNotStalled_kept.step h hinv.memWbNotStalled
  obtain ⟨hrun, w, m, e, d, hw, hm, he, hd, rfl⟩ := step_eq_next.1 h
  obtain ⟨hmoves, -, -, -, hfl, hpc⟩ := atId hinv hw hm he
  obtain ⟨hid, hdecodes, -⟩ := afterId hinv hw hm he hd
  have hhalted := halted_at_id hinv.memWbNotStalled hw hm he hrun
  have hidl := idl_at_id hw hm he
  obtain ⟨hdfl, hdpc, hdidl, hdhalted⟩ : d.flushed = e.flushed ∧ d.pc = e.pc ∧ d.idl = e.idl ∧ d.halted = e.halted := by
    rw [idStage_frame hd]
    exact ⟨rfl, rfl, rfl, rfl⟩
  have hfetches : s.fetches = (d.ifOccupied && !d.flushed && !d.idOccupied && !d.idStalled) := by
    rw [hdecodes.ifOccupied, hdfl, hfl, hid, hdecodes.idStalled, State.fetches]
  refine ⟨(hmoves.idStage hd).ifStage, hdecodes.ifStage, ⟨rfl, rfl⟩, hst, ?_, ?_, ?_⟩
  · rw [ifStage_eq, ← hfetches]
    cases hf : s.fetches
    · simp [hid, hdidl, hidl]
    · obtain ⟨hflush, hwaits⟩ := of_fetches hf
      simp [hwaits, hdpc, hpc, hflush]
  · rw [ifStage_eq, ← hfetches]
    cases hf : s.fetches
    · simp [hdpc, hpc]
    · simp [hdpc, hpc, (of_fetches hf).1]
  · rw [ifStage_frame]
    exact hdhalted.trans hhalted

end Sys2Proof.Machine

/-! SUPPORT. Every step keeps the pipeline invariant. -/

namespace Sys2Proof.Machine

section
variable {s t : State}

/-! ## What is in flight after a cycle, in terms of the state before it -/

theorem MovesOn.inWb (h : MovesOn s t) (p : Instr → Prop) :
    t.wbOccupied = true ∧ p t.wbInstr ↔ s.memOccupied = true ∧ p s.memInstr := by
  rw [h.wb.1]
  exact and_congr_right fun hocc => by rw [State.wbInstr, (h.wb.2 hocc).1, State.memInstr]

theorem MovesOn.inMem (h : MovesOn s t) (p : Instr → Prop) :
    t.memOccupied = true ∧ p t.memInstr ↔ s.exOccupied = true ∧ p s.exInstr := by
  rw [h.mem.1]
  exact and_congr_right fun hocc => by rw [State.memInstr, (h.mem.2 hocc).1, State.exInstr]

theorem Decodes.inEx (h : Decodes s t) (p : Instr → Prop) :
    t.exOccupied = true ∧ p t.exInstr ↔ s.issues = true ∧ p s.idInstr := by
  rw [h.ex.1]
  exact and_congr_right fun hocc => by rw [State.exInstr, (h.ex.2 hocc).1, State.idInstr]

theorem Advances.ctrlInEx (h : Advances s t) : t.ctrlInEx ↔ s.issuesControl = true := by
  simpa [State.issuesControl] using h.inEx (isControl · = true)
theorem Advances.ctrlInMem (h : Advances s t) : t.ctrlInMem ↔ s.ctrlInEx := h.inMem (isControl · = true)
theorem Advances.haltInEx (h : Advances s t) : t.haltInEx ↔ s.issuesHalt = true := by
  simpa [State.issuesHalt] using h.inEx (· = .halt)
theorem Advances.haltInMem (h : Advances s t) : t.haltInMem ↔ s.haltInEx := h.inMem (· = .halt)
theorem Advances.haltInWb (h : Advances s t) : t.haltInWb ↔ s.haltInMem := h.inWb (· = .halt)
theorem Advances.halted_iff (h : Advances s t) : t.halted = true ↔ s.haltInWb := by simp [h.halted]
theorem Advances.haltSeen_iff (h : Advances s t) : t.haltSeen = true ↔ s.haltSeen = true ∨ s.issuesHalt = true := by
  simp [h.haltSeen]

theorem Advances.idEmpty (h : Advances s t) (hwaits : s.waits = false) (hfetch : s.fetches = false) :
    t.idOccupied = false := by simp [h.id.1, hwaits, hfetch]

theorem Advances.pc_kept (h : Advances s t) (hfetch : s.fetches = false) (hflush : s.branchFlushes = false) :
    t.pc = s.pc := by simp [h.pc, hfetch, hflush]

/-- An instruction that issues, and behind which nothing is fetched, leaves `PC` just past it. -/
theorem Advances.pcPastIssued (h : Advances s t) (hinv : PipelineInv s) (hissues : s.issues = true)
    (hfetch : s.fetches = false) : t.pc = t.exl.pc + 2 := by
  have hocc := idOccupied_of_issues hissues
  obtain ⟨-, -, hmem⟩ := free_of_idOccupied hinv hocc
  rw [h.pc_kept hfetch (not_flushes hmem), (h.ex.2 hissues).2, hinv.pcPastId hocc]

theorem Advances.pcPastId (h : Advances s t) (hinv : PipelineInv s) (hocc : t.idOccupied = true) : t.pc = t.idl.pc + 2 := by
  rw [h.id.1, Bool.or_eq_true] at hocc
  rcases hocc with hwaits | hfetch
  · have hid := idOccupied_of_waits hwaits
    obtain ⟨-, -, hmem⟩ := free_of_idOccupied hinv hid
    rw [h.pc_kept (not_fetches_of_waits hwaits) (not_flushes hmem), h.id.2.1 hwaits, hinv.pcPastId hid]
  · simp [h.pc, h.id.2.2 hfetch, hfetch, of_fetches hfetch]

/-- A busy bit that ID sees set is for a write that WB has not taken up: it is in `EXL` or `MEML`. -/
theorem inFlight_of_busyAtId (hinv : PipelineInv s) {r : RegIdx} (h : s.busyAtId r = true) :
    (s.exOccupied = true ∧ dst s.exInstr = some r) ∨ (s.memOccupied = true ∧ dst s.memInstr = some r) := by
  obtain ⟨hbusy, hwb⟩ := (busyAtId_iff r).1 h
  exact (hinv.busyInFlight r hbusy).imp_right fun h => h.resolve_right hwb

theorem step_keeps_pipelineInv (hinv : PipelineInv s) (h : step s = .next t) : PipelineInv t := by
  have hrun : s.halted = false := (step_eq_next.1 h).1
  have adv := advances_of_step hinv h
  have hseen : s.haltSeen = true ↔ s.haltInEx ∨ s.haltInMem ∨ s.haltInWb := by simpa [hrun] using hinv.haltSeen
  exact {
    resting := adv.resting
    memWbNotStalled := adv.memWbNotStalled
    exStalled := by rw [adv.exStalled, decide_eq_true_iff, adv.ctrlInMem]
    idStalled := by rw [adv.idStalled, Bool.or_eq_true, decide_eq_true_iff, adv.ctrlInMem, adv.ctrlInEx, or_comm]
    stalledIdEmpty := fun hs => by
      rw [adv.idStalled, Bool.or_eq_true, decide_eq_true_iff] at hs
      rcases hs with hs | hs
      · obtain ⟨hwaits, -, hfetch, -⟩ := idle_of_ctrlInEx hinv hs
        exact adv.idEmpty hwaits hfetch
      · exact adv.idEmpty (not_waits_of_issues (issues_of_issuesControl hs)) (not_fetches_of_issuesControl hs)
    ctrlInMemAlone := fun hc => by
      obtain ⟨-, hissues, -, -⟩ := idle_of_ctrlInEx hinv (adv.ctrlInMem.1 hc)
      rw [adv.ex.1, hissues]
    pcPastId := adv.pcPastId hinv
    pcPastCtrlEx := fun hc => by
      rw [adv.ctrlInEx] at hc
      exact adv.pcPastIssued hinv (issues_of_issuesControl hc) (not_fetches_of_issuesControl hc)
    pcPastCtrlMem := fun hc => by
      rw [adv.ctrlInMem] at hc
      obtain ⟨-, -, hfetch, hflush⟩ := idle_of_ctrlInEx hinv hc
      rw [adv.pc_kept hfetch hflush, hinv.pcPastCtrlEx hc, (adv.mem.2 hc.1).2]
    haltStopsFetch := by
      rw [adv.haltSeen_iff, hinv.haltStopsFetch, adv.ifOccupied]
      simp [Classical.or_iff_not_imp_left]
    haltSeen := by rw [adv.haltSeen_iff, hseen, adv.haltInEx, adv.haltInMem, adv.haltInWb, adv.halted_iff, or_comm]
    haltSeenIdEmpty := fun hs => by
      rcases adv.haltSeen_iff.1 hs with hs | hs
      · obtain ⟨hwaits, -, hfetch⟩ := idle_of_haltSeen hinv hs
        exact adv.idEmpty hwaits hfetch
      · exact adv.idEmpty (not_waits_of_issues (issues_of_issuesHalt hs)) (not_fetches_of_issuesHalt hs)
    haltYoungestMem := fun hh => by
      obtain ⟨-, hissues, -⟩ := idle_of_haltSeen hinv (hseen.2 (.inl (adv.haltInMem.1 hh)))
      rw [adv.ex.1, hissues]
    haltYoungestWb := fun hh => by
      rw [adv.haltInWb] at hh
      obtain ⟨-, hissues, -⟩ := idle_of_haltSeen hinv (hseen.2 (.inr (.inl hh)))
      exact ⟨by rw [adv.ex.1, hissues], by rw [adv.mem.1, hinv.haltYoungestMem hh]⟩
    pcPastHaltEx := fun hh => by
      rw [adv.haltInEx] at hh
      exact adv.pcPastIssued hinv (issues_of_issuesHalt hh) (not_fetches_of_issuesHalt hh)
    pcPastHaltMem := fun hh => by
      rw [adv.haltInMem] at hh
      obtain ⟨-, -, hfetch⟩ := idle_of_haltSeen hinv (hseen.2 (.inl hh))
      have hflush : s.branchFlushes = false := not_flushes fun hc => absurd hh.1 (by simp [hinv.ctrlInMemAlone hc])
      rw [adv.pc_kept hfetch hflush, hinv.pcPastHaltEx hh, (adv.mem.2 hh.1).2]
    pcPastHaltWb := fun hh => by
      rw [adv.haltInWb] at hh
      obtain ⟨-, -, hfetch⟩ := idle_of_haltSeen hinv (hseen.2 (.inr (.inl hh)))
      have hflush : s.branchFlushes = false := not_flushes fun hc => absurd hc.2 (by simp [hh.2, isControl, instrClass])
      rw [adv.pc_kept hfetch hflush, hinv.pcPastHaltMem hh, (adv.wb.2 hh.1).2]
    haltedDrained := fun hh => by
      rw [adv.halted_iff] at hh
      obtain ⟨hwaits, hissues, hfetch⟩ := idle_of_haltSeen hinv (hseen.2 (.inr (.inr hh)))
      obtain ⟨hex, hmem⟩ := hinv.haltYoungestWb hh
      exact ⟨adv.idEmpty hwaits hfetch, by rw [adv.ex.1, hissues], by rw [adv.mem.1, hex], by rw [adv.wb.1, hmem]⟩
    busyInFlight := fun r hr => by
      rw [adv.busy, Bool.or_eq_true, Bool.and_eq_true, decide_eq_true_iff] at hr
      rw [State.writesInFlight, adv.inEx (dst · = some r), adv.inMem (dst · = some r), adv.inWb (dst · = some r)]
      rcases hr with hbusy | hissues
      · exact .inr (inFlight_of_busyAtId hinv hbusy)
      · exact .inl hissues }

end

end Sys2Proof.Machine

/-! SUPPORT. What one cycle adds to the counters, exactly, and that every step keeps the counter invariant. -/

namespace Sys2Proof.Machine

open Sys2Proof.Claims

/-! ## The increments of a cycle -/

theorem eq_halt_iff (i : Instr) : i = .halt ↔ instrClass i = some .halt := by cases i <;> simp [instrClass]

/-- An instruction with a class is one that can wait or a HALT (R99). -/
theorem hasClass_toNat (i : Instr) : (instrClass i).isSome.toNat = (canWait i).toNat + (decide (i = .halt)).toNat := by
  cases i <;> rfl

theorem nHalt_le_nTotal (t : Stats) : t.nHalt ≤ t.nTotal := Nat.le_add_left _ _

/-- What one cycle adds to the counters, unbounded (R24, R85, R90, R92, R99). -/
structure Counts (s t : State) : Prop where
  cycles : t.stats.cycles = s.stats.cycles + 1
  nHalt : t.stats.nHalt = s.stats.nHalt + (s.wbOccupied && decide (s.wbInstr = .halt)).toNat
  nCtrl : t.stats.nCtrl = s.stats.nCtrl + (s.wbOccupied && isControl s.wbInstr).toNat
  nTotal : t.stats.nTotal =
    s.stats.nTotal + (s.wbOccupied && canWait s.wbInstr).toNat + (s.wbOccupied && decide (s.wbInstr = .halt)).toNat
  dataStalls : t.stats.dataStalls = s.stats.dataStalls + s.waits.toNat
  ctrlStalls : t.stats.ctrlStalls = s.stats.ctrlStalls + 2 * s.issuesControl.toNat

section
variable {s t : State} (hcfg : s.cfg.ctrWidth = none) (hinv : PipelineInv s) (h : step s = .next t)
include hcfg hinv h

theorem step_stalls :
    t.stats.dataStalls = s.stats.dataStalls + s.waits.toNat ∧
    t.stats.ctrlStalls = s.stats.ctrlStalls + 2 * s.issuesControl.toNat := by
  obtain ⟨-, w, m, e, d, hw, hm, he, hd, rfl⟩ := step_eq_next.1 h
  obtain ⟨-, -, hdata, hctrl⟩ := wbStage_counts (s := s.rest) hcfg hw
  obtain ⟨-, -, hstats⟩ := afterId hinv hw hm he hd
  rw [stats_at_id hm he, cfg_at_id hw hm he, countUp_none hcfg, countUp_none hcfg, hdata, hctrl] at hstats
  rw [ifStage_frame d, rest_stats, countCycle_stats, hstats]
  cases s.waits <;> cases s.issuesControl <;> exact ⟨rfl, rfl⟩

/-- The word that retires adds to the total if it has a class. -/
theorem step_nTotal : t.stats.nTotal = s.stats.nTotal + (s.wbOccupied && (instrClass s.wbInstr).isSome).toNat := by
  obtain ⟨-, hcount, -, -⟩ := Proofs.countersOnlyCountUp s t hcfg h
  have harith := hcount .arith
  have hlogic := hcount .logic
  have hdata := hcount .data
  have hctrl := hcount .ctrl
  have hhalt := hcount .halt
  simp only [count, hinv.memWbNotStalled.2, true_and] at harith hlogic hdata hctrl hhalt
  rw [Stats.nTotal, harith, hlogic, hdata, hctrl, hhalt, Stats.nTotal]
  cases s.wbOccupied
  · simp
  · rcases instrClass s.wbInstr with _ | c
    · simp
    · cases c <;> simp <;> omega

theorem counts_of_step : Counts s t := by
  obtain ⟨hcycles, hcount, -, -⟩ := Proofs.countersOnlyCountUp s t hcfg h
  simp only [hinv.memWbNotStalled.2, true_and] at hcount
  obtain ⟨hdata, hctrl⟩ := step_stalls hcfg hinv h
  refine ⟨hcycles, ?_, ?_, ?_, hdata, hctrl⟩
  · simpa [count, eq_halt_iff, Bool.toNat, Bool.cond_eq_ite] using hcount .halt
  · simpa [count, isControl, Bool.toNat, Bool.cond_eq_ite] using hcount .ctrl
  · have hclass := hasClass_toNat s.wbInstr
    rw [step_nTotal hcfg hinv h]
    cases s.wbOccupied
    · simp
    · simp only [Bool.true_and]
      omega

end

section
variable {s t : State}

theorem Counts.nTotal_le (h : Counts s t) : t.stats.nTotal ≤ s.stats.nTotal + s.wbOccupied.toNat := by
  have hclass := hasClass_toNat s.wbInstr
  have hone := Bool.toNat_le (instrClass s.wbInstr).isSome
  rw [h.nTotal]
  cases s.wbOccupied
  · simp
  · simp only [Bool.true_and, Bool.toNat_true]
    omega

/-! ## What is in flight, and what waits -/

/-- One instruction enters by the issue, and one leaves by the retirement. -/
theorem Advances.inFlight (h : Advances s t) (p : Instr → Bool) :
    t.inFlight p + (s.wbOccupied && p s.wbInstr).toNat = s.inFlight p + (s.issues && p s.idInstr).toNat := by
  have hwb : (t.wbOccupied && p t.wbInstr) = (s.memOccupied && p s.memInstr) :=
    Bool.eq_iff_iff.2 (by simpa using h.inWb (p · = true))
  have hmem : (t.memOccupied && p t.memInstr) = (s.exOccupied && p s.exInstr) :=
    Bool.eq_iff_iff.2 (by simpa using h.inMem (p · = true))
  have hex : (t.exOccupied && p t.exInstr) = (s.issues && p s.idInstr) :=
    Bool.eq_iff_iff.2 (by simpa using h.inEx (p · = true))
  simp only [State.inFlight, hwb, hmem, hex]
  omega

theorem Advances.idOccupied_toNat (h : Advances s t) : t.idOccupied.toNat = s.waits.toNat + s.fetches.toNat := by
  rw [h.id.1]
  cases hwaits : s.waits
  · simp
  · simp [not_fetches_of_waits hwaits]

theorem waitFor_of_not_busyAtId {r : RegIdx} (h : ¬ s.busyAtId r = true) : s.waitFor r = 0 := by
  rw [busyAtId_iff, not_and, not_not] at h
  cases hbusy : s.isBusy r
  · exact waitFor_of_free hbusy
  · simp [State.waitFor, h hbusy]

theorem waitFor_of_busyAtId {r : RegIdx} (h : s.busyAtId r = true) :
    s.waitFor r = if s.memOccupied = true ∧ dst s.memInstr = some r then 1 else 2 := by
  obtain ⟨hbusy, hwb⟩ := (busyAtId_iff r).1 h
  simp only [State.waitFor, hbusy, hwb, Bool.true_eq_false, if_false]

/-- While nothing issues, the oldest write of `r` comes one latch nearer to its retirement (R105). -/
theorem Advances.waitFor (h : Advances s t) (hinv : PipelineInv s) (hissues : s.issues = false) (r : RegIdx) :
    t.waitFor r = s.waitFor r - 1 := by
  have hbusy : t.isBusy r = s.busyAtId r := by simp [h.busy, hissues]
  by_cases hs : s.busyAtId r = true
  · rw [waitFor_of_busyAtId hs]
    simp only [State.waitFor, hbusy, h.inWb (dst · = some r), h.inMem (dst · = some r)]
    by_cases hmem : s.memOccupied = true ∧ dst s.memInstr = some r
    · simp [hs, hmem]
    · have hex := (inFlight_of_busyAtId hinv hs).resolve_right hmem
      simp [hs, hmem, hex]
  · rw [waitFor_of_not_busyAtId hs, waitFor_of_free (by simpa [hbusy] using hs)]

theorem Advances.waitLeft (h : Advances s t) (hinv : PipelineInv s) (hwaits : s.waits = true) :
    t.waitLeft + 1 ≤ s.waitLeft := by
  obtain ⟨hocc, hany⟩ := Bool.and_eq_true_iff.1 hwaits
  obtain ⟨r₀, hr₀, hbusy⟩ := List.any_eq_true.1 hany
  have hissues : s.issues = false := by simp [State.issues, hany]
  have hbound := waitLeft_le_iff.1 (le_refl s.waitLeft) hocc
  have hpos : 1 ≤ s.waitLeft := by
    have hr := hbound r₀ hr₀
    rw [waitFor_of_busyAtId hbusy] at hr
    split_ifs at hr <;> omega
  have hinstr : t.idInstr = s.idInstr := congrArg (fun l : IdLatch => decode l.ir) (h.id.2.1 hwaits)
  have hless : t.waitLeft ≤ s.waitLeft - 1 := waitLeft_le_iff.2 fun _ r hr => by
    rw [h.waitFor hinv hissues]
    exact Nat.sub_le_sub_right (hbound r (hinstr ▸ hr)) 1
  omega

theorem waitLeft_le_canWait (s : State) : s.waitLeft ≤ 2 * (s.idOccupied && canWait s.idInstr).toNat := by
  cases hid : s.idOccupied
  · simp [waitLeft_of_empty hid]
  · cases hc : canWait s.idInstr
    · simp [State.waitLeft, srcs_of_not_canWait hc]
    · exact waitLeft_le_two s

/-- A cycle of waiting is one cycle less to wait; a fetched instruction brings a wait of at most two cycles (R106). -/
theorem Advances.waitLeft_balance (h : Advances s t) (hinv : PipelineInv s) :
    t.waitLeft + s.waits.toNat + 2 * (s.idOccupied && canWait s.idInstr).toNat ≤
      s.waitLeft + 2 * ((t.idOccupied && canWait t.idInstr).toNat + (s.issues && canWait s.idInstr).toNat) := by
  rw [idOccupied_split]
  cases hwaits : s.waits
  · have hle := waitLeft_le_canWait t
    simp only [Bool.false_and, Bool.toNat_false]
    omega
  · have hle := h.waitLeft hinv hwaits
    have hinstr : t.idInstr = s.idInstr := congrArg (fun l : IdLatch => decode l.ir) (h.id.2.1 hwaits)
    have hocc : t.idOccupied = true := by simp [h.id.1, hwaits]
    simp only [hinstr, hocc, Bool.true_and, Bool.toNat_true]
    omega

/-! ## The counter invariant -/

theorem step_keeps_counterInv (hcfg : s.cfg.ctrWidth = none) (hinv : PipelineInv s) (hs : CounterInv s)
    (h : step s = .next t) : CounterInv t := by
  have hrun : s.halted = false := (step_eq_next.1 h).1
  have adv := advances_of_step hinv h
  have cnt := counts_of_step hcfg hinv h
  have hcycles := cnt.cycles
  have htotal := cnt.nTotal_le
  have hpipe := hs.inPipe
  exact {
    nHalt := by
      rw [cnt.nHalt, hs.nHalt, hrun, adv.halted]
      simp
    ctrlStalls := by
      have hflight := adv.inFlight isControl
      rw [cnt.ctrlStalls, cnt.nCtrl, hs.ctrlStalls, State.issuesControl]
      omega
    dataStalls := by
      have hflight := adv.inFlight canWait
      have hwait := adv.waitLeft_balance hinv
      have hold := hs.dataStalls
      have hle := nHalt_le_nTotal s.stats
      rw [cnt.dataStalls, cnt.nTotal, cnt.nHalt]
      omega
    retired := by
      cases hocc : s.wbOccupied
      · have hold := hs.retired
        rw [hocc, Bool.toNat_false] at htotal
        omega
      · have hold := hs.inWb hocc
        rw [hocc, Bool.toNat_true] at htotal
        omega
    inWb := fun hocc => by
      have hold := hs.inMem (adv.wb.1 ▸ hocc)
      omega
    inMem := fun hocc => by
      have hold := hs.inEx (adv.mem.1 ▸ hocc)
      rw [adv.wb.1]
      omega
    inEx := fun hocc => by
      have hid : s.idOccupied = true := idOccupied_of_issues (adv.ex.1 ▸ hocc)
      rw [hid, Bool.toNat_true] at hpipe
      rw [adv.wb.1, adv.mem.1]
      omega
    inPipe := by
      have hid := idOccupied_toNat (s := s)
      have hid' := adv.idOccupied_toNat
      have hone := Bool.toNat_le s.fetches
      rw [adv.wb.1, adv.mem.1, adv.ex.1]
      omega }

end

end Sys2Proof.Machine

/-! SUPPORT. The balance of cycles (R104, R105, R179): each cycle fetches a word or has exactly one reason not to, so the cycles of
a run are accounted for by the words, stalls and flushes in it. -/

namespace Sys2Proof.Machine

section
variable {s t : State}

/-! ## A cycle fetches, or one thing keeps it from fetching -/

theorem ctrlInMem_split : (decide s.ctrlInMem).toNat = s.branchMatches.toNat + s.branchFlushes.toNat := by
  cases hpc : s.meml.alu == s.pc <;> simp [State.branchMatches, State.branchFlushes, bne, hpc]

theorem haltSeen_of_ctrlInMem (hinv : PipelineInv s) (hctrl : s.ctrlInMem) : s.haltSeen = false := by
  obtain ⟨hocc, hi⟩ := hctrl
  refine Bool.eq_false_iff.2 fun hseen => ?_
  rcases hinv.haltSeen.1 hseen with ⟨hex, -⟩ | ⟨-, hmem⟩ | hwb | hhalted
  · simp [hinv.ctrlInMemAlone ⟨hocc, hi⟩] at hex
  · rw [hmem] at hi
    cases hi
  · simp [hinv.haltYoungestWb hwb] at hocc
  · simp [hinv.haltedDrained hhalted] at hocc

theorem issuesControl_or_halt : s.issuesControl.toNat + s.issuesHalt.toNat ≤ s.issues.toNat := by
  cases hissues : s.issues
  · simp [State.issuesControl, State.issuesHalt, hissues]
  · by_cases hi : s.idInstr = .halt
    · simp [State.issuesControl, State.issuesHalt, hissues, hi, isControl, instrClass]
    · simp [State.issuesControl, State.issuesHalt, hissues, hi, Bool.toNat_le]

theorem idOccupied_or_unfed (hinv : PipelineInv s) :
    s.idOccupied.toNat + (decide s.ctrlInEx).toNat + s.branchFlushes.toNat + s.haltSeen.toNat ≤ 1 := by
  cases hid : s.idOccupied
  · by_cases hex : s.ctrlInEx
    · obtain ⟨-, -, -, hflush⟩ := idle_of_ctrlInEx hinv hex
      simp [haltSeen_of_ctrlInEx hinv hex, hflush, Bool.toNat_le]
    · by_cases hmem : s.ctrlInMem
      · simp [haltSeen_of_ctrlInMem hinv hmem, decide_eq_false hex, Bool.toNat_le]
      · simp [not_flushes hmem, decide_eq_false hex, Bool.toNat_le]
  · obtain ⟨hseen, hex, hmem⟩ := free_of_idOccupied hinv hid
    simp [hseen, not_flushes hmem, decide_eq_false hex]

theorem ifOccupied_eq (hinv : PipelineInv s) : s.ifOccupied = !s.haltSeen := by
  have hstop := hinv.haltStopsFetch
  cases hseen : s.haltSeen <;> simpa [hseen] using hstop

/-- Of six conditions at most one of which holds, none holds exactly if their number is 0. -/
theorem toNat_none_of_six {a b c d e f : Bool}
    (h : a.toNat + b.toNat + c.toNat + d.toNat + e.toNat + f.toNat ≤ 1) :
    ((!a && !b) && !c && !d && !(e || f)).toNat = 1 - (a.toNat + b.toNat + c.toNat + d.toNat + e.toNat + f.toNat) := by
  revert a b c d e f
  decide

theorem fetches_or_one_reason (hinv : PipelineInv s) :
    s.fetches.toNat + (s.haltSeen.toNat + s.issuesHalt.toNat + s.branchFlushes.toNat + s.waits.toNat +
      (decide s.ctrlInEx).toNat + s.issuesControl.toNat) = 1 := by
  have hid := idOccupied_toNat (s := s)
  have hissues := issuesControl_or_halt (s := s)
  have hunfed := idOccupied_or_unfed hinv
  have hone : s.haltSeen.toNat + s.issuesHalt.toNat + s.branchFlushes.toNat + s.waits.toNat +
      (decide s.ctrlInEx).toNat + s.issuesControl.toNat ≤ 1 := by omega
  rw [State.fetches, ifOccupied_eq hinv, toNat_none_of_six hone]
  omega

/-- A HALT that has issued is in one latch alone (R106). -/
theorem haltSeen_toNat (hinv : PipelineInv s) (hrun : s.halted = false) :
    s.haltSeen.toNat = (decide s.haltInEx).toNat + (decide s.haltInMem).toNat + (decide s.haltInWb).toNat := by
  have hseen : s.haltSeen = (decide s.haltInEx || decide s.haltInMem || decide s.haltInWb) :=
    Bool.eq_iff_iff.2 (by simpa [hrun, or_assoc] using hinv.haltSeen)
  have hmemEx : s.haltInMem → ¬ s.haltInEx := fun hm hex => absurd hex.1 (by simp [hinv.haltYoungestMem hm])
  have hwbEx : s.haltInWb → ¬ s.haltInEx := fun hw hex => absurd hex.1 (by simp [hinv.haltYoungestWb hw])
  have hwbMem : s.haltInWb → ¬ s.haltInMem := fun hw hm => absurd hm.1 (by simp [hinv.haltYoungestWb hw])
  rw [hseen]
  by_cases hw : s.haltInWb
  · rw [decide_eq_false (hwbEx hw), decide_eq_false (hwbMem hw)]
    simp
  · by_cases hm : s.haltInMem
    · rw [decide_eq_false (hmemEx hm), decide_eq_false hw]
      simp
    · rw [decide_eq_false hm, decide_eq_false hw]
      simp

/-! ## The balance of one cycle -/

/-- The cycles already spent on what is still in flight: one to fetch each word, those a control stall has lasted, and those
in which nothing was fetched because of a HALT. -/
def State.cyclesInFlight (s : State) : Nat :=
  s.idOccupied.toNat + s.exOccupied.toNat + s.memOccupied.toNat + s.wbOccupied.toNat +
  (decide s.ctrlInEx).toNat + 2 * (decide s.ctrlInMem).toNat +
  (decide s.haltInEx).toNat + 2 * (decide s.haltInMem).toNat + 3 * (decide s.haltInWb).toNat + 4 * s.halted.toNat

theorem step_cyclesInFlight (hinv : PipelineInv s) (h : step s = .next t) :
    t.cyclesInFlight + s.retires.toNat + s.waits.toNat + 2 * s.branchMatches.toNat + 3 * s.branchFlushes.toNat =
      s.cyclesInFlight + 1 := by
  have hrun : s.halted = false := (step_eq_next.1 h).1
  have adv := advances_of_step hinv h
  have hreason := fetches_or_one_reason hinv
  have hhalt := haltSeen_toNat hinv hrun
  have hctrl := ctrlInMem_split (s := s)
  have hid := idOccupied_toNat (s := s)
  have hret : s.retires = s.wbOccupied := by simp [State.retires, hinv.memWbNotStalled]
  simp only [State.cyclesInFlight, adv.ctrlInEx, decide_eq_decide.2 adv.ctrlInMem, adv.haltInEx,
    decide_eq_decide.2 adv.haltInMem, decide_eq_decide.2 adv.haltInWb, adv.halted, adv.idOccupied_toNat, adv.ex.1, adv.mem.1,
    adv.wb.1, Bool.decide_eq_true, hrun, hret, Bool.toNat_false]
  omega

/-! ## The balance of a run -/

theorem run_succ {n : Nat} (h : Host.Core.run Sys2Proof.core (n + 1) s = .next t) :
    ∃ u, step s = .next u ∧ Host.Core.run Sys2Proof.core n u = .next t := by
  cases hst : step s with
  | next u => exact ⟨u, rfl, by simpa [Host.Core.run, Sys2Proof.core, hst] using h⟩
  | fault r => simp [Host.Core.run, Sys2Proof.core, hst] at h
  | refused r => simp [Host.Core.run, Sys2Proof.core, hst] at h

theorem run_cycles (n : Nat) (hcfg : s.cfg.ctrWidth = none) (hinv : PipelineInv s)
    (h : Host.Core.run Sys2Proof.core n s = .next t) :
    t.stats.cycles = s.stats.cycles + n ∧
    t.cyclesInFlight + t.stats.dataStalls + tally State.retires n s + 2 * tally State.branchMatches n s +
      3 * tally State.branchFlushes n s = s.cyclesInFlight + s.stats.dataStalls + n := by
  induction n generalizing s with
  | zero =>
    cases h
    simp
  | succ n ih =>
    obtain ⟨u, hstep, hrun⟩ := run_succ h
    obtain ⟨hcycles, hbalance⟩ := ih (by rwa [step_cfg hstep]) (step_keeps_pipelineInv hinv hstep) hrun
    obtain ⟨hcycle, -, -, -, hdata, -⟩ := counts_of_step hcfg hinv hstep
    have hone := step_cyclesInFlight hinv hstep
    simp only [tally_succ hstep]
    omega

/-! ## Launch and halt -/

theorem cyclesInFlight_of_halted (hinv : PipelineInv s) (h : s.halted = true) : s.cyclesInFlight = 4 := by
  obtain ⟨hid, hex, hmem, hwb⟩ := hinv.haltedDrained h
  simp [State.cyclesInFlight, hid, hex, hmem, hwb, h]

theorem inFlight_of_drained (h : s.drained) (p : Instr → Bool) : s.inFlight p = 0 := by
  obtain ⟨-, hex, hmem, hwb⟩ := h
  simp [State.inFlight, hex, hmem, hwb]

/-- A launch state has the image's configuration, and nothing counted or in flight (R29). -/
theorem launch_counts {cfg : Config} {img : LaunchImage} (h : State.launch cfg img = some s) :
    s.cfg = cfg ∧ s.cyclesInFlight = 0 ∧ s.stats.cycles = 0 ∧ s.stats.dataStalls = 0 := by
  obtain ⟨-, rfl⟩ := launch_eq_some h
  exact ⟨rfl, rfl, rfl, rfl⟩

theorem run_keeps_invariants (n : Nat) (hcfg : s.cfg.ctrWidth = none) (hinv : PipelineInv s) (hcount : CounterInv s)
    (h : Host.Core.run Sys2Proof.core n s = .next t) : PipelineInv t ∧ CounterInv t :=
  (run_keeps (P := fun u => u.cfg.ctrWidth = none ∧ PipelineInv u ∧ CounterInv u)
    (fun hstep ⟨hcfg, hinv, hcount⟩ => ⟨by rwa [step_cfg hstep], step_keeps_pipelineInv hinv hstep,
      step_keeps_counterInv hcfg hinv hcount hstep⟩) n h ⟨hcfg, hinv, hcount⟩).2

end

end Sys2Proof.Machine

/-! The statements on exceptions and on the counters at the halt. -/

namespace Sys2Proof.Proofs

open Sys2Proof Sys2Proof.Machine Sys2Proof.Claims

/-- Settles O8: `exists_step`, and the run loop's test for the halted state. -/
theorem onlyTheHaltedStateHasNoSuccessor : Obligations.OnlyTheHaltedStateHasNoSuccessor :=
  fun s => ⟨exists_step, fun h => by simp [step, guardedCycle, h]⟩

/-- Settles O50: `step_keeps_counterInv`, from what one cycle does to the pipeline (`Advances`) and adds to the counters
(`Counts`). -/
theorem stepsKeepTheCounterInvariant : Obligations.StepsKeepTheCounterInvariant :=
  fun _ _ hcfg hinv hcount h => step_keeps_counterInv hcfg hinv hcount h

/-- Settles O46: the counter invariant of a state in which nothing is in flight. -/
theorem counterRelationsAtTheHalt : Obligations.CounterRelationsAtTheHalt := by
  intro cfg img n t hcfg ⟨s, hs, hrun⟩ hhalt
  obtain ⟨rfl, -, hzero, -⟩ := launch_counts hs
  obtain ⟨hpipe, -⟩ := launchMeetsTheInvariants _ img s hs
  obtain ⟨hpipe', hcount⟩ := run_keeps_invariants n hcfg hpipe (launchMeetsTheCounterInvariant _ img s hs) hrun
  obtain ⟨hcycles, -⟩ := run_cycles n hcfg hpipe hrun
  have hdrained := hpipe'.haltedDrained hhalt
  have hone : t.stats.nHalt = 1 := by rw [hcount.nHalt, hhalt]; rfl
  have hctrl := hcount.ctrlStalls
  have hdata := hcount.dataStalls
  have htotal := nHalt_le_nTotal t.stats
  rw [inFlight_of_drained hdrained] at hctrl hdata
  rw [hone, hdrained.1, Bool.false_and, Bool.toNat_false] at hdata
  exact ⟨hone, hctrl, by omega, hcount.retired.resolve_left (by omega), by omega⟩

/-- Settles O48: the balance of the run (`run_cycles`), at the halt, where the 4 cycles behind the HALT remain in it. -/
theorem exactCycleCountAtTheHalt : Obligations.ExactCycleCountAtTheHalt := by
  intro cfg img n s t hcfg hs hrun hhalt
  obtain ⟨rfl, hflight, hzero, hdata⟩ := launch_counts hs
  obtain ⟨hpipe, -⟩ := launchMeetsTheInvariants _ img s hs
  obtain ⟨hpipe', -⟩ := run_keeps_invariants n hcfg hpipe (launchMeetsTheCounterInvariant _ img s hs) hrun
  obtain ⟨hcycles, hbalance⟩ := run_cycles n hcfg hpipe hrun
  have hfour := cyclesInFlight_of_halted hpipe' hhalt
  omega

end Sys2Proof.Proofs

/-! SUPPORT. Draining the pipeline: each instruction in flight completes, the oldest first, and nothing is fetched. -/

namespace Sys2Proof.Machine

open Sys2Proof.Claims

/-! ## The stage actions, and the drained state -/

/-- EX has acted on `i` (R93, R94), as `State.issued` and `State.retired` say for ID and WB. -/
def State.executed (s : State) (i : Instr) : State :=
  { s.toMem (result i s).1 (result i s).2 with exStalled := isControl i || s.exStalled }

/-- MEM has acted on `i` and deposited it into `WBL` (R95). -/
def State.accessed (s : State) (i : Instr) : State := (s.memActed i).toWb (s.memVal i)

/-- `f`, if the latch with the occupied flag `occ` holds an instruction. -/
def runIf (occ : State → Bool) (f : State → State) (s : State) : State := if occ s = true then f s else s

/-- What each stage function does when nothing holds it up. -/
def State.runWb : State → State := runIf State.wbOccupied fun s => s.retired s.wbInstr
def State.runMem : State → State := runIf State.memOccupied fun s => s.accessed s.memInstr
def State.runEx : State → State := runIf State.exOccupied fun s => s.executed s.exInstr
def State.runId : State → State := runIf State.idOccupied fun s => s.issued s.idInstr

/-- The instruction in `MEML`, in `EXL` or in `IDL` completes. -/
def State.drainMem (s : State) : State := s.runMem.runWb
def State.drainEx (s : State) : State := s.runEx.drainMem
def State.drainId (s : State) : State := s.runId.drainEx

/-- All that has issued completes, and then the instruction in `IDL` too. -/
def State.drainIssued (s : State) : State := s.runWb.drainMem.drainEx
def State.drain (s : State) : State := s.drainIssued.drainId

section
variable {occ : State → Bool} {f g : State → State} {s : State}

theorem runIf_of_empty (h : occ s = false) : runIf occ f s = s := by simp [runIf, h]
theorem runIf_of_occupied (h : occ s = true) : runIf occ f s = f s := by simp [runIf, h]

/-- An update that leaves the latch occupied or empty, and commutes with the action on an instruction in it. -/
theorem runIf_comm (hocc : occ (g s) = occ s) (h : occ s = true → f (g s) = g (f s)) :
    runIf occ f (g s) = g (runIf occ f s) := by
  cases hs : occ s
  · rw [runIf_of_empty hs, runIf_of_empty (hocc.trans hs)]
  · rw [runIf_of_occupied hs, runIf_of_occupied (hocc.trans hs), h hs]

end

/-! ## What each action does, and what it leaves unchanged -/

section
variable (s : State) (i : Instr)

/-- A retirement, field by field. -/
theorem retired_eq : s.retired i = { s with
    regs := match dst i with
      | some d => if d = 0 then s.regs else s.regs.set d s.wbl.val
      | none => s.regs
    busy := match dst i with
      | some d => s.busy.set d false
      | none => s.busy
    wbOccupied := false
    halted := decide (i = .halt) || s.halted
    stats := counted s.cfg s.stats (instrClass i) } := by
  rw [retired_frame]
  rcases hdst : dst i with _ | d
  · rw [retired_of_no_dst hdst]; rfl
  · by_cases hd : d = 0 <;> rcases hclass : instrClass i with _ | c <;>
      simp [State.retired, hdst, hclass, hd, State.writeReg, countClass_eq_counted, State.setBusy, State.consumeWb]

theorem accessed_frame : s.accessed i = { s with
    pc := (s.accessed i).pc, dmem := (s.accessed i).dmem, idOccupied := (s.accessed i).idOccupied
    exOccupied := (s.accessed i).exOccupied, memOccupied := false, wbOccupied := true
    idStalled := (s.accessed i).idStalled, exStalled := (s.accessed i).exStalled
    memStalled := (s.accessed i).memStalled, wbStalled := (s.accessed i).wbStalled
    wbl := { ir := s.meml.ir, pc := s.meml.pc, val := s.memVal i }, flushed := (s.accessed i).flushed } := by
  rcases memActed_cases s i with ⟨-, -, ha⟩ | ⟨_, _, _, -, ha⟩ | ⟨-, -, ha⟩ | ⟨-, -, ha⟩ <;> rw [State.accessed, ha] <;> rfl

/-- MEM acting on anything but a control instruction. -/
theorem accessed_eq {i : Instr} (hctrl : isControl i = false) : s.accessed i = { s with
    dmem := match i with
      | .store v _ _ => Memory.write s.dmem (addrOf s.meml.alu) (s.x v)
      | _ => s.dmem
    memOccupied := false
    wbl := { ir := s.meml.ir, pc := s.meml.pc, val := s.memVal i }
    wbOccupied := true } := by
  cases i with
  | jmp imm8 => cases hctrl
  | beqz c imm8 => cases hctrl
  | _ => rfl

end

/-! ## Timing -/

/-- The state without its cycle and data-stall counters and the signals within a cycle: what waiting changes. -/
def State.untimed (s : State) : State :=
  { s with flushed := false, stage := .wb, stats := { s.stats with cycles := 0, dataStalls := 0 } }

/-- Timing does not bear on the update. -/
def Timeless (f : State → State) : Prop := ∀ s, (f s.untimed).untimed = (f s).untimed

section
variable {f g : State → State} {s t : State}

theorem Timeless.congr (hf : Timeless f) (h : s.untimed = t.untimed) : (f s).untimed = (f t).untimed := by
  rw [← hf s, h, hf t]

theorem Timeless.comp (hf : Timeless f) (hg : Timeless g) : Timeless fun s => f (g s) := fun s => hf.congr (hg s)

theorem Timeless.runIf {occ : State → Bool} (hf : Timeless f) (hocc : ∀ s : State, occ s.untimed = occ s) :
    Timeless (runIf occ f) := fun s => by
  cases hs : occ s
  · rw [runIf_of_empty hs, runIf_of_empty ((hocc s).trans hs)]; rfl
  · rw [runIf_of_occupied hs, runIf_of_occupied ((hocc s).trans hs), hf s]

end

theorem timeless_fetch : Timeless State.fetch := fun _ => rfl

theorem timeless_retired (i : Instr) : Timeless fun s => s.retired i := fun s => by
  simp only [retired_eq]
  rcases instrClass i with _ | c
  · rfl
  · cases c <;> rfl

theorem timeless_memActed (i : Instr) : Timeless fun s => s.memActed i := fun s => by
  have hresolve : (s.untimed.consumeMem.resolve s.meml.alu).untimed = (s.consumeMem.resolve s.meml.alu).untimed := by
    by_cases hpc : s.meml.alu = s.pc
    · rw [resolve_match s.consumeMem hpc, resolve_match s.untimed.consumeMem hpc]; rfl
    · rw [resolve_differ s.consumeMem hpc, resolve_differ s.untimed.consumeMem hpc]; rfl
  cases i with
  | jmp imm8 => exact hresolve
  | beqz c imm8 => exact hresolve
  | _ => rfl

theorem timeless_accessed (i : Instr) : Timeless fun s => s.accessed i := fun s => by
  have hdeposit : ∀ v, Timeless fun s => s.toWb v := fun _ _ => rfl
  have hval : s.untimed.memVal i = s.memVal i := memVal_congr rfl rfl i
  simp only [State.accessed, hval]
  exact (hdeposit _).congr (timeless_memActed i s)

theorem timeless_executed (i : Instr) : Timeless fun s => s.executed i := fun s => by
  have hres : result i s.untimed = result i s := result_congr (s := s.untimed) (t := s) rfl rfl rfl i
  simp only [State.executed, hres]
  rfl

theorem operands_congr {s t : State} {i : Instr} (h : ∀ r ∈ srcs i, s.x r = t.x r) : operands i s = operands i t := by
  cases i <;> simp_all [operands, srcs]

theorem timeless_issued (i : Instr) : Timeless fun s => s.issued i := fun s => by
  have hops : operands i s.untimed = operands i s := operands_congr fun _ _ => rfl
  simp only [State.issued, hops]
  cases isControl i <;> rfl

theorem timeless_runWb : Timeless State.runWb := Timeless.runIf (fun s => timeless_retired s.wbInstr s) fun _ => rfl
theorem timeless_runMem : Timeless State.runMem := Timeless.runIf (fun s => timeless_accessed s.memInstr s) fun _ => rfl
theorem timeless_runEx : Timeless State.runEx := Timeless.runIf (fun s => timeless_executed s.exInstr s) fun _ => rfl
theorem timeless_runId : Timeless State.runId := Timeless.runIf (fun s => timeless_issued s.idInstr s) fun _ => rfl

theorem timeless_drainMem : Timeless State.drainMem := timeless_runWb.comp timeless_runMem
theorem timeless_drainEx : Timeless State.drainEx := timeless_drainMem.comp timeless_runEx
theorem timeless_drainId : Timeless State.drainId := timeless_drainEx.comp timeless_runId
theorem timeless_drain : Timeless State.drain :=
  timeless_drainId.comp (timeless_drainEx.comp (timeless_drainMem.comp timeless_runWb))

/-! ## Actions of two stages on two instructions, in either order -/

/-- `i` neither reads nor writes the register that `j` writes. -/
def Independent (i j : Instr) : Prop := ∀ r, dst j = some r → r ∉ srcs i ∧ dst i ≠ some r

section
variable (s : State) {i j : Instr}

theorem busy_ext {s t : State} (h : ∀ r, s.isBusy r = t.isBusy r) : s.busy = t.busy :=
  Vector.ext fun i hi => h ⟨i, hi⟩

theorem fetch_retired (j : Instr) : s.fetch.retired j = (s.retired j).fetch := by rw [retired_eq, retired_eq]; rfl

theorem fetch_accessed (hj : isControl j = false) : s.fetch.accessed j = (s.accessed j).fetch := by
  have hval : s.fetch.memVal j = s.memVal j := memVal_congr rfl rfl j
  rw [accessed_eq _ hj, accessed_eq _ hj, hval]
  rfl

theorem fetch_executed (hj : isControl j = false) : s.fetch.executed j = (s.executed j).fetch := by
  have hres : result j s.fetch = result j s := by
    cases j with
    | jmp imm8 => cases hj
    | beqz c imm8 => cases hj
    | _ => rfl
  rw [State.executed, hres]
  rfl

theorem executed_retired (i j : Instr) : (s.executed i).retired j = (s.retired j).executed i := by
  have hres : result i (s.retired j) = result i s := by
    apply result_congr <;> rw [retired_frame]
  rw [State.executed, State.executed, hres, retired_eq, retired_eq]
  rfl

theorem issued_accessed (i : Instr) (hj : isControl j = false) : (s.issued i).accessed j = (s.accessed j).issued i := by
  have hval : (s.issued i).memVal j = s.memVal j := memVal_congr rfl rfl j
  have hops : operands i (s.accessed j) = operands i s := operands_congr fun r _ => by rw [accessed_eq _ hj]; rfl
  conv_rhs => rw [State.issued, hops, accessed_eq _ hj]
  rw [accessed_eq _ hj, hval]
  rfl

/-- The counter of a class and the control stalls are counted apart. -/
theorem counted_issued_stats (i j : Instr) :
    counted s.cfg (s.issued i).stats (instrClass j) = ((s.retired j).issued i).stats := by
  have hcfg : (s.retired j).cfg = s.cfg := by rw [retired_frame]
  have hstats : (s.retired j).stats = counted s.cfg s.stats (instrClass j) := by rw [retired_frame]
  simp only [State.issued, hstats, hcfg]
  cases isControl i
  · rfl
  · rcases instrClass j with _ | c
    · rfl
    · cases c <;> rfl

theorem issued_retired (h : Independent i j) : (s.issued i).retired j = (s.retired j).issued i := by
  have hops : operands i (s.retired j) = operands i s := operands_congr fun r hr => by
    rw [retired_x, if_neg fun ⟨hdst, _⟩ => (h r hdst).1 hr]
  have hregs : ((s.issued i).retired j).regs = (s.retired j).regs := by rw [retired_eq, retired_eq]; rfl
  have hbusy : ((s.issued i).retired j).busy = ((s.retired j).issued i).busy := busy_ext fun r => by
    rw [retired_isBusy, issued_isBusy, issued_isBusy, retired_isBusy]
    by_cases hj : dst j = some r
    · simp [hj, (h r hj).2]
    · simp [hj]
  have hcfg : (s.issued i).cfg = s.cfg := rfl
  rw [retired_frame, hregs, hbusy, hcfg, counted_issued_stats, State.issued, State.issued, hops, retired_frame]

end

/-! ## Which latches are empty -/

section
variable (s : State)

theorem runWb_frame : s.runWb = { s with
    regs := s.runWb.regs, busy := s.runWb.busy, wbOccupied := false, halted := s.runWb.halted, stats := s.runWb.stats } := by
  cases hocc : s.wbOccupied
  · rw [State.runWb, runIf_of_empty hocc, ← hocc]
  · rw [State.runWb, runIf_of_occupied hocc, retired_frame]

theorem runMem_frame : s.runMem = { s with
    pc := s.runMem.pc, dmem := s.runMem.dmem, idOccupied := s.runMem.idOccupied, exOccupied := s.runMem.exOccupied
    memOccupied := false, wbOccupied := s.runMem.wbOccupied, idStalled := s.runMem.idStalled
    exStalled := s.runMem.exStalled, memStalled := s.runMem.memStalled, wbStalled := s.runMem.wbStalled
    wbl := s.runMem.wbl, flushed := s.runMem.flushed } := by
  cases hocc : s.memOccupied
  · rw [State.runMem, runIf_of_empty hocc, ← hocc]
  · rw [State.runMem, runIf_of_occupied hocc, accessed_frame]

theorem runEx_frame : s.runEx = { s with
    exOccupied := false, exStalled := s.runEx.exStalled, meml := s.runEx.meml, memOccupied := s.runEx.memOccupied } := by
  cases hocc : s.exOccupied
  · rw [State.runEx, runIf_of_empty hocc, ← hocc]
  · rw [State.runEx, runIf_of_occupied hocc]; rfl

@[simp] theorem runWb_wbOccupied : s.runWb.wbOccupied = false := by rw [runWb_frame]
@[simp] theorem runWb_memOccupied : s.runWb.memOccupied = s.memOccupied := by rw [runWb_frame]
@[simp] theorem runWb_exOccupied : s.runWb.exOccupied = s.exOccupied := by rw [runWb_frame]
@[simp] theorem runWb_idOccupied : s.runWb.idOccupied = s.idOccupied := by rw [runWb_frame]
@[simp] theorem runMem_memOccupied : s.runMem.memOccupied = false := by rw [runMem_frame]
@[simp] theorem runEx_exOccupied : s.runEx.exOccupied = false := by rw [runEx_frame]
@[simp] theorem runEx_idOccupied : s.runEx.idOccupied = s.idOccupied := by rw [runEx_frame]

@[simp] theorem runId_idOccupied : s.runId.idOccupied = false := by
  cases hocc : s.idOccupied
  · rw [State.runId, runIf_of_empty hocc, hocc]
  · rw [State.runId, runIf_of_occupied hocc]; rfl

/-- MEM fills no younger latch. -/
theorem runMem_younger :
    (s.exOccupied = false → s.runMem.exOccupied = false) ∧ (s.idOccupied = false → s.runMem.idOccupied = false) := by
  cases hocc : s.memOccupied
  · rw [State.runMem, runIf_of_empty hocc]; exact ⟨id, id⟩
  · rw [State.runMem, runIf_of_occupied hocc, State.accessed]
    rcases memActed_cases s s.memInstr with ⟨-, -, ha⟩ | ⟨_, _, _, -, ha⟩ | ⟨-, -, ha⟩ | ⟨-, -, ha⟩ <;> rw [ha]
    · exact ⟨id, id⟩
    · exact ⟨id, id⟩
    · exact ⟨id, id⟩
    · exact ⟨fun _ => rfl, fun _ => rfl⟩

end

/-- No instruction that has issued is still in a latch. -/
abbrev State.issuedDone (s : State) : Prop := s.exOccupied = false ∧ s.memOccupied = false ∧ s.wbOccupied = false

section
variable {s : State}

theorem drainMem_of_empty (hmem : s.memOccupied = false) (hwb : s.wbOccupied = false) : s.drainMem = s := by
  rw [State.drainMem, State.runMem, runIf_of_empty hmem, State.runWb, runIf_of_empty hwb]

theorem drainEx_of_issuedDone (h : s.issuedDone) : s.drainEx = s := by
  obtain ⟨hex, hmem, hwb⟩ := h
  rw [State.drainEx, State.runEx, runIf_of_empty hex, drainMem_of_empty hmem hwb]

theorem drainId_of_drained (h : s.drained) : s.drainId = s := by
  obtain ⟨hid, hissued⟩ := h
  rw [State.drainId, State.runId, runIf_of_empty hid, drainEx_of_issuedDone hissued]

@[simp] theorem drainMem_memOccupied (s : State) : s.drainMem.memOccupied = false := by simp [State.drainMem]
@[simp] theorem drainMem_wbOccupied (s : State) : s.drainMem.wbOccupied = false := by simp [State.drainMem]

theorem drainMem_exOccupied (h : s.exOccupied = false) : s.drainMem.exOccupied = false := by
  rw [State.drainMem, runWb_exOccupied, (runMem_younger s).1 h]

theorem drainMem_idOccupied (h : s.idOccupied = false) : s.drainMem.idOccupied = false := by
  rw [State.drainMem, runWb_idOccupied, (runMem_younger s).2 h]

theorem drainEx_idOccupied (h : s.idOccupied = false) : s.drainEx.idOccupied = false :=
  drainMem_idOccupied (by rw [runEx_idOccupied, h])

theorem drainEx_issuedDone (s : State) : s.drainEx.issuedDone :=
  ⟨drainMem_exOccupied (runEx_exOccupied s), drainMem_memOccupied _, drainMem_wbOccupied _⟩

theorem drainId_drained (s : State) : s.drainId.drained := ⟨drainEx_idOccupied (runId_idOccupied s), drainEx_issuedDone _⟩

theorem drainIssued_idOccupied (h : s.idOccupied = false) : s.drainIssued.idOccupied = false :=
  drainEx_idOccupied (drainMem_idOccupied (by rw [runWb_idOccupied, h]))

theorem drain_of_idEmpty (h : s.idOccupied = false) : s.drain = s.drainIssued :=
  drainId_of_drained ⟨drainIssued_idOccupied h, drainEx_issuedDone _⟩

theorem drain_of_drained (h : s.drained) : s.drain = s := by
  obtain ⟨hid, hex, hmem, hwb⟩ := h
  rw [drain_of_idEmpty hid, State.drainIssued, State.runWb, runIf_of_empty hwb, drainMem_of_empty hmem hwb,
    drainEx_of_issuedDone ⟨hex, hmem, hwb⟩]

end

/-! ## The order of two stages does not matter -/

section
variable {s : State}

theorem fetch_runWb : s.fetch.runWb = s.runWb.fetch := runIf_comm rfl fun _ => fetch_retired s _

theorem fetch_runMem (hmem : ¬ s.ctrlInMem) : s.fetch.runMem = s.runMem.fetch :=
  runIf_comm rfl fun hocc => fetch_accessed s (Bool.eq_false_iff.2 fun hc => hmem ⟨hocc, hc⟩)

theorem fetch_runEx (hex : ¬ s.ctrlInEx) : s.fetch.runEx = s.runEx.fetch :=
  runIf_comm rfl fun hocc => fetch_executed s (Bool.eq_false_iff.2 fun hc => hex ⟨hocc, hc⟩)

theorem retired_runEx (s : State) (j : Instr) : s.runEx.retired j = (s.retired j).runEx := by
  have hocc : (s.retired j).exOccupied = s.exOccupied := by rw [retired_frame]
  have hinstr : (s.retired j).exInstr = s.exInstr := by rw [retired_frame]; rfl
  refine (runIf_comm (g := fun s => s.retired j) hocc fun _ => ?_).symm
  rw [hinstr, executed_retired]

theorem runEx_runWb (s : State) : s.runEx.runWb = s.runWb.runEx :=
  runIf_comm (by rw [runEx_frame]) fun _ => by
    have hinstr : s.runEx.wbInstr = s.wbInstr := by rw [runEx_frame]; rfl
    rw [hinstr, retired_runEx]

theorem issued_runWb {i : Instr} (h : s.wbOccupied = true → Independent i s.wbInstr) :
    (s.issued i).runWb = s.runWb.issued i :=
  runIf_comm (g := fun u => u.issued i) rfl fun hocc => issued_retired s (h hocc)

theorem issued_runMem (i : Instr) (hmem : ¬ s.ctrlInMem) : (s.issued i).runMem = s.runMem.issued i :=
  runIf_comm (g := fun u => u.issued i) rfl fun hocc =>
    issued_accessed s i (Bool.eq_false_iff.2 fun hc => hmem ⟨hocc, hc⟩)

theorem runMem_wbInstr (hocc : s.memOccupied = true) : s.runMem.wbInstr = s.memInstr := by
  rw [State.runMem, runIf_of_occupied hocc, accessed_frame]
  rfl

theorem issued_drainMem {i : Instr} (hwb : s.wbOccupied = false) (hctrl : ¬ s.ctrlInMem)
    (h : s.memOccupied = true → Independent i s.memInstr) : (s.issued i).drainMem = s.drainMem.issued i := by
  have hind : s.runMem.wbOccupied = true → Independent i s.runMem.wbInstr := fun hocc => by
    cases hmem : s.memOccupied
    · rw [State.runMem, runIf_of_empty hmem, hwb] at hocc
      cases hocc
    · rw [runMem_wbInstr hmem]
      exact h hmem
  rw [State.drainMem, issued_runMem i hctrl, issued_runWb hind]
  rfl

theorem fetch_drainMem (hmem : ¬ s.ctrlInMem) : s.fetch.drainMem = s.drainMem.fetch := by
  rw [State.drainMem, fetch_runMem hmem, fetch_runWb]
  rfl

/-- Without a JMP or BEQZ in `MEML`, completing the instruction there leaves `IDL` and `EXL` as they are. -/
theorem drainMem_keeps (hmem : ¬ s.ctrlInMem) : s.drainMem.idOccupied = s.idOccupied ∧ s.drainMem.idl = s.idl ∧
    s.drainMem.exOccupied = s.exOccupied ∧ s.drainMem.exl = s.exl := by
  rw [State.drainMem, runWb_frame]
  cases hocc : s.memOccupied
  · rw [State.runMem, runIf_of_empty hocc]
    exact ⟨rfl, rfl, rfl, rfl⟩
  · rw [State.runMem, runIf_of_occupied hocc, accessed_eq s (Bool.eq_false_iff.2 fun hc => hmem ⟨hocc, hc⟩)]
    exact ⟨rfl, rfl, rfl, rfl⟩

theorem ctrlInMem_runWb (s : State) : s.runWb.ctrlInMem ↔ s.ctrlInMem := by rw [runWb_frame]; rfl

/-- EX hands a JMP or BEQZ on, so if `MEML` is empty and none is in `EXL` then EX leaves none in `MEML`. -/
theorem not_ctrlInMem_runEx (hmem : s.memOccupied = false) (hex : ¬ s.ctrlInEx) : ¬ s.runEx.ctrlInMem := by
  cases hocc : s.exOccupied
  · rw [State.runEx, runIf_of_empty hocc]
    exact fun ⟨h, _⟩ => by simp [hmem] at h
  · rw [State.runEx, runIf_of_occupied hocc]
    exact fun ⟨_, hc⟩ => hex ⟨hocc, hc⟩

end

/-! ## A stage that acts does not change the drained state -/

section
variable {s : State}

theorem drain_runWb (s : State) : s.runWb.drain = s.drain := by
  have htwice : s.runWb.runWb = s.runWb := runIf_of_empty (runWb_wbOccupied s)
  rw [State.drain, State.drainIssued, htwice]
  rfl

theorem drain_runMem (hwb : s.wbOccupied = false) : s.runMem.drain = s.drain := by
  have hnone : s.runWb = s := runIf_of_empty hwb
  have htwice : s.drainMem.drainMem = s.drainMem := drainMem_of_empty (drainMem_memOccupied s) (drainMem_wbOccupied s)
  calc s.runMem.drain = s.drainMem.drainMem.drainEx.drainId := rfl
    _ = s.runWb.drainMem.drainEx.drainId := by rw [htwice, hnone]

theorem drain_runEx (hmem : s.memOccupied = false) : s.runEx.drain = s.drain := by
  have hnone : s.runWb.drainMem = s.runWb := drainMem_of_empty (by rw [runWb_memOccupied, hmem]) (runWb_wbOccupied s)
  have htwice : s.runWb.drainEx.drainEx = s.runWb.drainEx := drainEx_of_issuedDone (drainEx_issuedDone _)
  calc s.runEx.drain = s.runWb.drainEx.drainEx.drainId := by rw [State.drain, State.drainIssued, runEx_runWb]; rfl
    _ = s.runWb.drainMem.drainEx.drainId := by rw [htwice, hnone]

/-- An instruction that issues overtakes the older ones in the drain, which it is independent of. -/
theorem drain_issued (hid : s.idOccupied = true) (hex : s.exOccupied = false) (hctrl : ¬ s.ctrlInMem)
    (hwb : s.wbOccupied = true → Independent s.idInstr s.wbInstr)
    (hmem : s.memOccupied = true → Independent s.idInstr s.memInstr) : (s.issued s.idInstr).drain = s.drain := by
  have hctrl' : ¬ s.runWb.ctrlInMem := by rwa [ctrlInMem_runWb]
  have hmem' : s.runWb.memOccupied = true → Independent s.idInstr s.runWb.memInstr := by rw [runWb_frame]; exact hmem
  obtain ⟨hyid, hyidl, hyex, -⟩ := drainMem_keeps hctrl'
  have hissue : s.runWb.drainMem.runId = s.runWb.drainMem.issued s.idInstr := by
    rw [State.runId, runIf_of_occupied (by rw [hyid, runWb_idOccupied, hid]), State.idInstr, hyidl, runWb_frame]
    rfl
  have hnone : s.runWb.drainMem.drainEx = s.runWb.drainMem :=
    drainEx_of_issuedDone ⟨by rw [hyex, runWb_exOccupied, hex], drainMem_memOccupied _, drainMem_wbOccupied _⟩
  calc (s.issued s.idInstr).drain = (s.runWb.drainMem.issued s.idInstr).drainEx.drainId := by
        rw [State.drain, State.drainIssued, issued_runWb hwb, issued_drainMem (runWb_wbOccupied s) hctrl' hmem']
    _ = s.runWb.drainMem.drainId.drainId := by rw [← hissue]; rfl
    _ = s.runWb.drainMem.drainEx.drainId := by rw [drainId_of_drained (drainId_drained _), hnone]

/-- A fetched word comes last in the drain. -/
theorem drainIssued_fetch (hex : ¬ s.ctrlInEx) (hmem : ¬ s.ctrlInMem) : s.fetch.drainIssued = s.drainIssued.fetch := by
  have hmem' : ¬ s.runWb.ctrlInMem := by rwa [ctrlInMem_runWb]
  obtain ⟨-, -, hyex, hyexl⟩ := drainMem_keeps hmem'
  have hex' : ¬ s.runWb.drainMem.ctrlInEx := by
    rw [State.ctrlInEx, State.exInstr, hyex, hyexl, runWb_frame]
    exact hex
  have hmem'' := not_ctrlInMem_runEx (drainMem_memOccupied s.runWb) hex'
  rw [State.drainIssued, fetch_runWb, fetch_drainMem hmem', State.drainEx, fetch_runEx hex', fetch_drainMem hmem'']
  rfl

end

end Sys2Proof.Machine

/-! SUPPORT. A cycle and the drained state: without a fetch it stays as it is; with a fetch it takes one step of the
one-at-a-time interpretation. -/

namespace Sys2Proof.Machine

open Sys2Proof.Claims

/-! ## The stage functions as stage actions -/

section
variable {s t : State}

theorem wbStage_untimed (h : wbStage s = .next t) (hst : s.wbStalled = false) : t.untimed = s.runWb.untimed := by
  rcases wbStage_inv h with ⟨hr, rfl⟩ | ⟨hr, rfl⟩
  · have hocc : t.wbOccupied = false := by simpa [State.retires, hst] using hr
    rw [State.runWb, runIf_of_empty hocc]
  · rw [State.runWb, runIf_of_occupied ((retires_iff s).1 hr).1]
    exact (timeless_retired _).congr rfl

theorem memStage_untimed (h : memStage s = .next t) (hst : s.memStalled = false ∧ s.wbStalled = false)
    (hwb : s.wbOccupied = false) : t.untimed = s.runMem.untimed := by
  rcases memStage_inv h with ⟨hidle, rfl⟩ | ⟨hocc, -, -, -, rfl⟩
  · have hocc : t.memOccupied = false := by simpa [hst, hwb] using hidle
    rw [State.runMem, runIf_of_empty hocc]
  · rw [State.runMem, runIf_of_occupied hocc]
    exact (timeless_accessed s.memInstr).congr (s := s.atStage .mem) (t := s) rfl

theorem exStage_untimed (h : exStage s = .next t) (hst : s.exStalled = false ∧ s.memStalled = false)
    (hmem : s.memOccupied = false) : t.untimed = s.runEx.untimed := by
  rcases exStage_inv h with ⟨hidle, rfl⟩ | ⟨hocc, -, -, -, rfl⟩
  · have hocc : t.exOccupied = false := by simpa [hst, hmem] using hidle
    rw [State.runEx, runIf_of_empty hocc]
  · rw [State.runEx, runIf_of_occupied hocc]
    exact (timeless_executed s.exInstr).congr (s := s.atStage .ex) (t := s) rfl

/-- ID leaves the instruction to wait, which only the data stalls show (R90), or issues it (R91). -/
theorem idStage_untimed (h : idStage s = .next t) :
    t.untimed = s.untimed ∨
    (s.idOccupied = true ∧ s.hazard (srcs s.idInstr) = false ∧ t.untimed = (s.issued s.idInstr).untimed) := by
  rcases idStage_inv h with ⟨-, rfl⟩ | ⟨hocc, -, -, -, -, ⟨-, rfl⟩ | ⟨hz, rfl⟩⟩
  · exact .inl rfl
  · exact .inl rfl
  · exact .inr ⟨hocc, hz, (timeless_issued s.idInstr).congr rfl⟩

end

/-! ## One writer for each busy register -/

/-- A register is busy for exactly one instruction in flight that writes it. -/
def OneWriter (s : State) : Prop := ∀ r, s.inFlight (fun i => decide (dst i = some r)) = (s.isBusy r).toNat

/-- An instruction in `EXL` or `MEML` writes register `r`. -/
abbrev State.writesBehindWb (s : State) (r : RegIdx) : Prop :=
  (s.exOccupied = true ∧ dst s.exInstr = some r) ∨ (s.memOccupied = true ∧ dst s.memInstr = some r)

/-- What R206 asks of the instruction in `IDL`: if it writes a register that one in `EXL` or `MEML` writes, it also reads it. -/
def State.Spaced (s : State) : Prop :=
  s.idOccupied = true → ∀ r, s.writesBehindWb r → dst s.idInstr = some r → r ∈ srcs s.idInstr

section
variable {s t : State} (hone : OneWriter s)
include hone

/-- The one writer of `r` is not in `WBL`, so the busy bit stays set through WB. -/
theorem busyAtId_of_writesBehindWb {r : RegIdx} (h : s.writesBehindWb r) : s.busyAtId r = true := by
  have hcount := hone r
  have hle := Bool.toNat_le (s.isBusy r)
  have hpos : 1 ≤ (s.exOccupied && decide (dst s.exInstr = some r)).toNat +
      (s.memOccupied && decide (dst s.memInstr = some r)).toNat := by
    rcases h with ⟨hocc, hdst⟩ | ⟨hocc, hdst⟩ <;> simp [hocc, hdst]
  rw [State.inFlight] at hcount
  have hbusy : s.isBusy r = true := Bool.toNat_eq_one.1 (by omega)
  have hwb : (s.wbOccupied && decide (dst s.wbInstr = some r)) = false := Bool.toNat_eq_zero.1 (by omega)
  rw [State.busyAtId, hbusy, hwb]
  rfl

variable (hspaced : s.Spaced) (hissues : s.issues = true)
include hspaced hissues

theorem not_writesBehindWb_of_issues {r : RegIdx} (h : s.writesBehindWb r) : r ∉ srcs s.idInstr ∧ dst s.idInstr ≠ some r := by
  obtain ⟨hid, hfree⟩ := Bool.and_eq_true_iff.1 hissues
  have hsrc : r ∉ srcs s.idInstr := fun hr => by
    have hany : (srcs s.idInstr).any s.busyAtId = true := List.any_eq_true.2 ⟨r, hr, busyAtId_of_writesBehindWb hone h⟩
    simp [hany] at hfree
  exact ⟨hsrc, fun hdst => hsrc (hspaced hid r h hdst)⟩

end

/-- A condition that `w` ends and `i` begins, where `i` does not begin it while it goes on. -/
theorem toNat_handed_on {b w i : Bool} (hw : w.toNat ≤ b.toNat) (hi : (b && !w) = true → i = false) :
    ((b && !w) || i).toNat + w.toNat = b.toNat + i.toNat := by
  revert b w i
  decide

theorem step_keeps_oneWriter {s t : State} (hinv : PipelineInv s) (hone : OneWriter s) (hspaced : s.Spaced)
    (h : step s = .next t) : OneWriter t := fun r => by
  have adv := advances_of_step hinv h
  have hflight := adv.inFlight fun i => decide (dst i = some r)
  have hcount := hone r
  have hbusy := adv.busy r
  have hexcl : s.busyAtId r = true → (s.issues && decide (dst s.idInstr = some r)) = false := fun hb => by
    cases hissues : s.issues
    · rfl
    · simp [(not_writesBehindWb_of_issues hone hspaced hissues (inFlight_of_busyAtId hinv hb)).2]
  have hwb : (s.wbOccupied && decide (dst s.wbInstr = some r)).toNat ≤ s.inFlight fun i => decide (dst i = some r) :=
    Nat.le_add_left _ _
  rw [hcount] at hflight hwb
  have hbalance := toNat_handed_on hwb hexcl
  rw [hbusy, State.busyAtId]
  omega

/-! ## The drained state through a cycle -/

section
variable {s t : State} (hinv : PipelineInv s) (hone : OneWriter s) (hspaced : s.Spaced)
include hinv

section
variable {w m e : State} (hw : wbStage s.rest = .next w) (hm : memStage w = .next m) (he : exStage m = .next e)
include hw hm he

/-- WB, MEM and EX bring the instructions in flight nearer to the drained state, and change nothing of it. -/
theorem drain_at_id : e.drain.untimed = s.drain.untimed := by
  have hst := hinv.memWbNotStalled
  obtain ⟨hwb, hwst⟩ := ready_at_mem hst hw
  obtain ⟨-, hmem, -, hexst, -, -, -⟩ := afterMem hinv hw hm
  have hmst := memWbNotStalled_kept.mem hm hwst
  calc e.drain.untimed = m.runEx.drain.untimed := timeless_drain.congr (exStage_untimed he ⟨hexst, hmst.1⟩ hmem)
    _ = m.drain.untimed := by rw [drain_runEx hmem]
    _ = w.runMem.drain.untimed := timeless_drain.congr (memStage_untimed hm hwst hwb)
    _ = w.drain.untimed := by rw [drain_runMem hwb]
    _ = s.rest.runWb.drain.untimed := timeless_drain.congr (wbStage_untimed hw hst.2)
    _ = s.rest.drain.untimed := by rw [drain_runWb]
    _ = s.drain.untimed := timeless_drain.congr rfl

include hone hspaced

/-- Nor does ID: what it issues is independent of what is ahead of it. -/
theorem drain_at_if {d : State} (hd : idStage e = .next d) : d.drain.untimed = s.drain.untimed := by
  obtain ⟨hmoves, hex, hid, -, -, -⟩ := atId hinv hw hm he
  have hinstr := idInstr_at_id hw hm he
  rw [← drain_at_id hinv hw hm he]
  rcases idStage_untimed hd with hwait | ⟨hocc, hz, hissue⟩
  · exact timeless_drain.congr hwait
  · have hissues : s.issues = true := by
      rw [hazard_at_id hinv.memWbNotStalled hw hm he, hinstr] at hz
      simp [State.issues, hz, ← hid, hocc]
    obtain ⟨-, hctrl, -⟩ := free_of_idOccupied hinv (idOccupied_of_issues hissues)
    have hind := fun r => not_writesBehindWb_of_issues hone hspaced hissues (r := r)
    rw [timeless_drain.congr hissue, drain_issued hocc hex fun hc => hctrl ((hmoves.inMem (isControl · = true)).1 hc)]
    · intro hwb
      have hmem : s.memOccupied = true := hmoves.wb.1 ▸ hwb
      exact ((hmoves.inWb (Independent e.idInstr)).2 ⟨hmem, fun r hr => hinstr ▸ hind r (.inr ⟨hmem, hr⟩)⟩).2
    · intro hmem
      have hsex : s.exOccupied = true := hmoves.mem.1 ▸ hmem
      exact ((hmoves.inMem (Independent e.idInstr)).2 ⟨hsex, fun r hr => hinstr ▸ hind r (.inl ⟨hsex, hr⟩)⟩).2

end

end

/-- Completing what has issued leaves alone the fetched word and the fetch enable. -/
theorem drainIssued_keeps (s : State) : s.drainIssued.idl = s.idl ∧ s.drainIssued.ifOccupied = s.ifOccupied := by
  have hmem : ∀ u : State, u.drainMem.idl = u.idl ∧ u.drainMem.ifOccupied = u.ifOccupied := fun u => by
    rw [State.drainMem, runWb_frame, runMem_frame]
    exact ⟨rfl, rfl⟩
  have hex : ∀ u : State, u.drainEx.idl = u.idl ∧ u.drainEx.ifOccupied = u.ifOccupied := fun u => by
    rw [State.drainEx, (hmem _).1, (hmem _).2, runEx_frame]
    exact ⟨rfl, rfl⟩
  rw [State.drainIssued, (hex _).1, (hex _).2, (hmem _).1, (hmem _).2, runWb_frame]
  exact ⟨rfl, rfl⟩

theorem fetch_idInstr (s : State) : s.fetch.idInstr = s.nextInstr := rfl

/-- A fetch into an empty `IDL` fetches what the drained state would, and the word completes last. -/
theorem drain_fetch {s : State} (hid : s.idOccupied = false) (hex : ¬ s.ctrlInEx) (hmem : ¬ s.ctrlInMem) :
    s.fetch.idInstr = s.drain.nextInstr ∧ s.fetch.drain = s.drain.fetch.drainId := by
  have hfetch : s.fetch.drainIssued = s.drain.fetch := by rw [drain_of_idEmpty hid, drainIssued_fetch hex hmem]
  have hidl : s.fetch.idl = s.drain.fetch.idl := by rw [← hfetch, (drainIssued_keeps _).1]
  exact ⟨by rw [← fetch_idInstr, State.idInstr, State.idInstr, hidl], congrArg State.drainId hfetch⟩

section
variable {s t : State} (hinv : PipelineInv s) (hone : OneWriter s) (hspaced : s.Spaced) (h : step s = .next t)
include hinv hone hspaced h

/-- A cycle without a fetch leaves the drained state; one with a fetch makes it the drained state `y` before, followed by the
word that `y` fetches. -/
theorem step_drain :
    (s.fetches = false ∧ t.drain.untimed = s.drain.untimed) ∨
    (s.fetches = true ∧ ∃ y : State, y.untimed = s.drain.untimed ∧ y.ifOccupied = true ∧ t.idInstr = y.nextInstr ∧
      t.drain.untimed = y.fetch.drainId.untimed) := by
  obtain ⟨-, w, m, e, d, hw, hm, he, hd, rfl⟩ := step_eq_next.1 h
  obtain ⟨hmoves, -, -, -, hfl, -⟩ := atId hinv hw hm he
  obtain ⟨hid, hdecodes, -⟩ := afterId hinv hw hm he hd
  have hmoves := hmoves.idStage hd
  have hdrain := drain_at_if hinv hone hspaced hw hm he hd
  have htimed : (ifStage d).countCycle.rest.drain.untimed = (ifStage d).drain.untimed := timeless_drain.congr rfl
  have hdfl : d.flushed = e.flushed := by rw [idStage_frame hd]
  have hfetches : s.fetches = (d.ifOccupied && !d.flushed && !d.idOccupied && !d.idStalled) := by
    rw [hdecodes.ifOccupied, hdfl, hfl, hid, hdecodes.idStalled, State.fetches]
  rw [htimed, ifStage_eq, ← hfetches]
  cases hf : s.fetches
  · exact .inl ⟨rfl, hdrain⟩
  · rw [hf] at hfetches
    simp only [Bool.true_eq, Bool.and_eq_true, Bool.not_eq_true'] at hfetches
    obtain ⟨⟨⟨hif, -⟩, hidEmpty⟩, hidst⟩ := hfetches
    rw [hdecodes.idStalled, Bool.or_eq_false_iff, decide_eq_false_iff_not] at hidst
    have hex : ¬ d.ctrlInEx := fun hc => by
      have := (hdecodes.inEx (isControl · = true)).1 hc
      simp [State.issuesControl, this] at hidst
    have hmem : ¬ d.ctrlInMem := fun hc => hidst.1 ((hmoves.inMem (isControl · = true)).1 hc)
    obtain ⟨hword, hfetched⟩ := drain_fetch hidEmpty hex hmem
    refine .inr ⟨rfl, d.drain, hdrain, ?_, hword, ?_⟩
    · rw [drain_of_idEmpty hidEmpty, (drainIssued_keeps d).2, hif]
    · rw [if_pos rfl, hfetched]

end

/-! ## An instruction alone -/

section
variable {s t : State}

/-- The instruction in `IDL` completing, stage by stage. -/
theorem drainId_eq (hid : s.idOccupied = true) :
    s.drainId = ((((s.issued s.idInstr).executed s.idInstr).accessed s.idInstr).retired s.idInstr) := by
  have hinstr : (((s.issued s.idInstr).executed s.idInstr).accessed s.idInstr).wbInstr = s.idInstr := by
    rw [accessed_frame]
    rfl
  rw [State.drainId, State.runId, runIf_of_occupied hid, State.drainEx, State.runEx, runIf_of_occupied rfl, State.drainMem,
    State.runMem, runIf_of_occupied rfl, State.runWb, runIf_of_occupied (by rw [accessed_frame])]
  exact congrArg _ hinstr

/-- It leaves its destination free, and a HALT halts the machine and stops fetching. -/
theorem drainId_leaves (hid : s.idOccupied = true) :
    (∀ r, s.drainId.isBusy r = if dst s.idInstr = some r then false else s.isBusy r) ∧
    s.drainId.halted = (decide (s.idInstr = .halt) || s.halted) ∧
    s.drainId.ifOccupied = (!decide (s.idInstr = .halt) && s.ifOccupied) := by
  rw [drainId_eq hid]
  refine ⟨fun r => ?_, ?_, ?_⟩
  · have hissued : (((s.issued s.idInstr).executed s.idInstr).accessed s.idInstr).isBusy r = (s.issued s.idInstr).isBusy r := by
      rw [accessed_frame]
      rfl
    rw [retired_isBusy, hissued, issued_isBusy]
    split <;> rfl
  · rw [retired_frame, accessed_frame]
    rfl
  · rw [retired_frame, accessed_frame]
    rfl

theorem runAlone_of_passes {i : Instr} (h : Passes i s t) : runAlone i s = .next t := by
  obtain ⟨s₁, s₂, s₃, hid, hex, hmem, hwb⟩ := h
  simp [runAlone, hid, hex, hmem, hwb]

/-- Passing alone is completing from `IDL`. -/
theorem throughMem_untimed (hid : s.idOccupied = true) :
    (((s.throughMem s.idInstr).atStage .wb).retired s.idInstr).untimed = s.drainId.untimed := by
  have hissued : (((s.atStage .id).issued s.idInstr).atStage .ex).untimed = (s.issued s.idInstr).untimed :=
    (timeless_issued s.idInstr).congr (s := s.atStage .id) (t := s) rfl
  rw [drainId_eq hid]
  refine (timeless_retired s.idInstr).congr (s := (s.throughMem s.idInstr).atStage .wb) ?_
  refine (timeless_accessed s.idInstr).congr (s := (s.throughEx s.idInstr).atStage .mem) ?_
  exact (timeless_executed s.idInstr).congr hissued

/-- With no register busy, a step of the one-at-a-time interpretation is a fetch and the completion of the word fetched. -/
theorem seqStep_eq (hrun : s.halted = false) (hfree : ∀ r, s.isBusy r = false) :
    ∃ t, seqStep s = .next t ∧ t.untimed = s.fetch.drainId.untimed := by
  have hz : s.fetch.hazard (srcs s.nextInstr) = false := Bool.eq_false_iff.2 fun hh => by
    obtain ⟨r, -, hr⟩ := (hazard_iff _ _).1 hh
    exact Bool.eq_false_iff.1 (hfree r) hr
  refine ⟨(((s.fetch.throughMem s.nextInstr).atStage .wb).retired s.nextInstr).rest, ?_, throughMem_untimed (s := s.fetch) rfl⟩
  simp [seqStep, hrun, runAlone_of_passes (passes_of_free hz)]

end

end Sys2Proof.Machine

/-! SUPPORT. The pipeline refines running one instruction at a time (R206): between two cycles the drained state is a state of
the one-at-a-time run, but for timing; and the pipeline reaches its last one. -/

namespace Sys2Proof.Machine

open Sys2Proof.Claims

/-- States that differ in timing alone agree in whatever does not depend on it. -/
theorem eq_of_untimed_eq {α : Type} {f : State → α} (hf : ∀ s : State, f s.untimed = f s) {s t : State}
    (h : s.untimed = t.untimed) : f s = f t := by rw [← hf s, h, hf t]

/-! ## Progress -/

section
variable {s t : State}

/-- How many latches the instructions in flight have still to leave. -/
def State.latchesLeft (s : State) : Nat :=
  4 * s.idOccupied.toNat + 3 * s.exOccupied.toNat + 2 * s.memOccupied.toNat + s.wbOccupied.toNat

/-- Only an empty pipeline is at rest, and until a HALT has emptied it, it fetches. -/
theorem fetches_or_moves (hinv : PipelineInv s) (hrun : s.halted = false) :
    s.fetches = true ∨ s.issues = true ∨ s.exOccupied = true ∨ s.memOccupied = true ∨ s.wbOccupied = true := by
  by_contra hno
  simp only [not_or, Bool.not_eq_true] at hno
  obtain ⟨hfetch, hissues, hex, hmem, hwb⟩ := hno
  have hseen : s.haltSeen = false := Bool.eq_false_iff.2 fun hs => by
    simpa [State.haltInEx, State.haltInMem, State.haltInWb, hex, hmem, hwb, hrun] using hinv.haltSeen.1 hs
  have hwaits : s.waits = false := Bool.eq_false_iff.2 fun hw => by
    obtain ⟨r, -, hr⟩ := List.any_eq_true.1 (Bool.and_eq_true_iff.1 hw).2
    simpa [hex, hmem] using inFlight_of_busyAtId hinv hr
  have hif : s.ifOccupied = true := by simp [ifOccupied_eq hinv, hseen]
  simp [State.fetches, State.issuesHalt, State.issuesControl, State.branchFlushes, hif, hissues, hwaits, hex, hmem] at hfetch

/-- A fetched word has four latches to leave, and every other move is one latch less to leave. -/
theorem latchesLeft_of_advances (h : Advances s t) (hinv : PipelineInv s) (hrun : s.halted = false) :
    t.latchesLeft + 1 ≤ s.latchesLeft + 5 * s.fetches.toNat := by
  have hid := idOccupied_toNat (s := s)
  have hmoves : 1 ≤ s.fetches.toNat + s.issues.toNat + s.exOccupied.toNat + s.memOccupied.toNat + s.wbOccupied.toNat := by
    rcases fetches_or_moves hinv hrun with hm | hm | hm | hm | hm <;> rw [hm, Bool.toNat_true] <;> omega
  rw [State.latchesLeft, State.latchesLeft, h.idOccupied_toNat, h.ex.1, h.mem.1, h.wb.1]
  omega

/-! ## The words last executed -/

/-- The instruction of a latch, if it holds one. -/
def held (occ : Bool) (i : Instr) : List Instr := if occ = true then [i] else []

/-- The instructions in `IDL`, `EXL` and `MEML`, the youngest first. -/
def State.recent (s : State) : List Instr :=
  held s.idOccupied s.idInstr ++ (held s.exOccupied s.exInstr ++ held s.memOccupied s.memInstr)

/-- Those of a later cycle are, but for a word it fetched, the younger ones of the cycle before. -/
theorem recent_of_advances (h : Advances s t) {p : Nat} {i : Instr} (hp : t.recent[p]? = some i) :
    (held s.fetches t.idInstr ++ s.recent)[p]? = some i := by
  have hmem : held t.memOccupied t.memInstr = held s.exOccupied s.exInstr := by
    rw [h.mem.1]
    cases hocc : s.exOccupied
    · rfl
    · rw [State.memInstr, (h.mem.2 hocc).1, State.exInstr]
  have hex : held t.exOccupied t.exInstr = held s.issues s.idInstr := by
    rw [h.ex.1]
    cases hocc : s.issues
    · rfl
    · rw [State.exInstr, (h.ex.2 hocc).1, State.idInstr]
  have hid : held t.idOccupied t.idInstr ++ held s.issues s.idInstr =
      held s.fetches t.idInstr ++ held s.idOccupied s.idInstr := by
    rw [h.id.1]
    cases hwaits : s.waits
    · have hissues : s.issues = s.idOccupied := by
        rw [State.waits] at hwaits
        rw [State.issues]
        cases hocc : s.idOccupied <;> simp_all
      rw [hissues, Bool.false_or]
    · have hinstr : t.idInstr = s.idInstr := congrArg (fun l : IdLatch => decode l.ir) (h.id.2.1 hwaits)
      have hissues : s.issues = false := Bool.eq_false_iff.2 fun hi => by simp [not_waits_of_issues hi] at hwaits
      rw [hinstr, hissues, not_fetches_of_waits hwaits, idOccupied_of_waits hwaits]
      rfl
  have hall : t.recent ++ held s.memOccupied s.memInstr = held s.fetches t.idInstr ++ s.recent := by
    rw [State.recent, hmem, hex, ← List.append_assoc, hid, State.recent, List.append_assoc, List.append_assoc]
  obtain ⟨hlt, -⟩ := List.getElem?_eq_some_iff.1 hp
  rw [← hall, List.getElem?_append_left hlt, hp]

end

/-! ## The one-at-a-time run -/

/-- `i` is the word that the run from `s₀` executes `p` words before its state number `k`. -/
def Executed (s₀ : State) (k p : Nat) (i : Instr) : Prop :=
  ∃ j a, j + p + 1 = k ∧ seqRun j s₀ = .next a ∧ a.halted = false ∧ a.nextInstr = i

section
variable {s₀ : State}

theorem seqRun_add (j k : Nat) (s : State) : seqRun (j + k) s = andThen (seqRun j s) (seqRun k) := by
  induction j generalizing s with
  | zero => rw [Nat.zero_add]; rfl
  | succ j ih =>
    rw [Nat.add_right_comm]
    simp only [seqRun]
    cases seqStep s with
    | next t => exact ih t
    | fault r => rfl
    | refused r => rfl

theorem seqRun_succ_of_next {k : Nat} {a b : State} (hrun : seqRun k s₀ = .next a) (h : seqStep a = .next b) :
    seqRun (k + 1) s₀ = .next b := by
  rw [seqRun_add, hrun]
  simp [seqRun, h]

/-- The halted state is the last of the run. -/
theorem eq_of_seqRun_halted {k n : Nat} {a u : State} (hk : k ≤ n) (ha : seqRun k s₀ = .next a) (hhalt : a.halted = true)
    (hu : seqRun n s₀ = .next u) : a = u := by
  obtain ⟨j, rfl⟩ := Nat.exists_eq_add_of_le hk
  rw [seqRun_add, ha] at hu
  cases j with
  | zero => simpa [seqRun] using hu
  | succ j => simp [seqRun, seqStep, hhalt, andThen] at hu

theorem mem_srcs_of_executed (hgap : NoOverlappingWriters s₀) {k p : Nat} {i j : Instr} {r : RegIdx} (hp : p = 1 ∨ p = 2)
    (hi : Executed s₀ k 0 i) (hj : Executed s₀ k p j) (hdj : dst j = some r) (hdi : dst i = some r) : r ∈ srcs i := by
  obtain ⟨m, a, hm, hrun, hhalt, rfl⟩ := hi
  obtain ⟨m', a', hm', hrun', hhalt', rfl⟩ := hj
  obtain rfl : m = m' + p := by omega
  exact hgap m' p a' a r hp hrun' hrun hhalt' hhalt hdj hdi

end

/-! ## The refinement -/

/-- The cycle-level machine in state `s` has taken up the first `k` words of the one-at-a-time run from `s₀`, and completing
those still in flight gives that run's state `a`. -/
structure Refines (s₀ : State) (k : Nat) (s a : State) : Prop where
  pipeline : PipelineInv s
  oneWriter : OneWriter s
  run : seqRun k s₀ = .next a
  drain : s.drain.untimed = a.untimed
  free : ∀ r, a.isBusy r = false
  halted : a.halted = !a.ifOccupied
  recent : ∀ p i, s.recent[p]? = some i → Executed s₀ k p i

section
variable {s₀ s t a : State} {k : Nat}

theorem refines_start (hinv : PipelineInv s) (hempty : s.drained) (hif : s.ifOccupied = true) : Refines s 0 s s := by
  have hseen : s.haltSeen = false := by simpa [ifOccupied_eq hinv] using hif
  obtain ⟨hid, hex, hmem, hwb⟩ := hempty
  have hfree : ∀ r, s.isBusy r = false := fun r => Bool.eq_false_iff.2 fun hr => by
    simpa [State.writesInFlight, hex, hmem, hwb] using hinv.busyInFlight r hr
  exact {
    pipeline := hinv
    oneWriter := fun r => by rw [inFlight_of_drained ⟨hid, hex, hmem, hwb⟩, hfree r]; rfl
    run := rfl
    drain := by rw [drain_of_drained ⟨hid, hex, hmem, hwb⟩]
    free := hfree
    halted := by
      rw [hif]
      refine Bool.eq_false_iff.2 fun hh => ?_
      simp [hinv.haltSeen.2 (.inr (.inr (.inr hh)))] at hseen
    recent := fun p i hi => by simp [State.recent, held, hid, hex, hmem] at hi }

variable (href : Refines s₀ k s a) (hgap : NoOverlappingWriters s₀)
include href hgap

theorem Refines.spaced : s.Spaced := fun hid r hw hdst => by
  have hzero : s.recent[0]? = some s.idInstr := by simp [State.recent, held, hid]
  rcases hw with ⟨hex, hj⟩ | ⟨hmem, hj⟩
  · have hone : s.recent[1]? = some s.exInstr := by simp [State.recent, held, hid, hex]
    exact mem_srcs_of_executed hgap (.inl rfl) (href.recent 0 _ hzero) (href.recent 1 _ hone) hj hdst
  · cases hex : s.exOccupied
    · have hone : s.recent[1]? = some s.memInstr := by simp [State.recent, held, hid, hex, hmem]
      exact mem_srcs_of_executed hgap (.inl rfl) (href.recent 0 _ hzero) (href.recent 1 _ hone) hj hdst
    · have htwo : s.recent[2]? = some s.memInstr := by simp [State.recent, held, hid, hex, hmem]
      exact mem_srcs_of_executed hgap (.inr rfl) (href.recent 0 _ hzero) (href.recent 2 _ htwo) hj hdst

theorem Refines.step (h : step s = .next t) :
    (s.fetches = false ∧ Refines s₀ k t a) ∨ (s.fetches = true ∧ a.halted = false ∧ ∃ b, Refines s₀ (k + 1) t b) := by
  have hinv := href.pipeline
  have hinv' := step_keeps_pipelineInv hinv h
  have hspaced := href.spaced hgap
  have hone := step_keeps_oneWriter hinv href.oneWriter hspaced h
  have hrecent : ∀ p i, t.recent[p]? = some i → _ := fun p i => recent_of_advances (advances_of_step hinv h)
  rcases step_drain hinv href.oneWriter hspaced h with ⟨hf, hdrain⟩ | ⟨hf, y, hy, hif, hword, hdrain⟩
  · rw [hf] at hrecent
    exact .inl ⟨hf, { href with
      pipeline := hinv', oneWriter := hone, drain := hdrain.trans href.drain
      recent := fun p i hi => href.recent p i (hrecent p i hi) }⟩
  · rw [hf] at hrecent
    have hya : y.untimed = a.untimed := hy.trans href.drain
    have haif : a.ifOccupied = true := by
      have hkept : y.ifOccupied = a.ifOccupied := eq_of_untimed_eq (fun _ => rfl) hya
      rw [← hkept, hif]
    have hhalt : a.halted = false := by rw [href.halted, haif]; rfl
    have hnext : y.nextInstr = a.nextInstr := eq_of_untimed_eq (fun _ => rfl) hya
    obtain ⟨b, hb, hbun⟩ := seqStep_eq hhalt href.free
    obtain ⟨hfree, hhalted, hifb⟩ := drainId_leaves (s := a.fetch) rfl
    exact .inr ⟨hf, hhalt, b, {
      pipeline := hinv'
      oneWriter := hone
      run := seqRun_succ_of_next href.run hb
      drain := by
        rw [hdrain, hbun]
        exact timeless_drainId.congr (timeless_fetch.congr hya)
      free := fun r => by
        have hkept : b.isBusy r = a.fetch.drainId.isBusy r := eq_of_untimed_eq (f := fun u => u.isBusy r) (fun _ => rfl) hbun
        have hfetch : a.fetch.isBusy r = false := href.free r
        rw [hkept, hfree, hfetch, ite_self]
      halted := by
        have hkept : b.halted = a.fetch.drainId.halted ∧ b.ifOccupied = a.fetch.drainId.ifOccupied :=
          ⟨eq_of_untimed_eq (fun _ => rfl) hbun, eq_of_untimed_eq (fun _ => rfl) hbun⟩
        rw [hkept.1, hkept.2, hhalted, hifb, fetch_halted, fetch_ifOccupied, hhalt, haif]
        simp
      recent := fun p i hi => by
        have hi := hrecent p i hi
        cases p with
        | zero => exact ⟨k, a, rfl, href.run, hhalt, by simpa [held, hword, hnext] using hi⟩
        | succ p =>
          obtain ⟨j, c, hj, hc⟩ := href.recent p i (by simpa [held] using hi)
          exact ⟨j, c, by omega, hc⟩ }⟩

end

theorem endsIn_of_step {s t u : State} (h : step s = .next t) (hends : EndsIn t u) : EndsIn s u := by
  obtain ⟨n, hrun, hhalt⟩ := hends
  exact ⟨n + 1, by simpa [Host.Core.run, Sys2Proof.core, h] using hrun, hhalt⟩

/-- The cycle-level machine ends in the state that ends the one-at-a-time run, but for timing: with every cycle there are fewer
words to fetch, or fewer latches to leave. -/
theorem Refines.ends {s₀ u : State} {n : Nat} (hgap : NoOverlappingWriters s₀) (hu : seqRun n s₀ = .next u)
    (hhalt : u.halted = true) {k : Nat} {s a : State} (href : Refines s₀ k s a) (hk : k ≤ n) :
    ∃ t, EndsIn s t ∧ t.untimed = u.untimed := by
  induction hm : 5 * (n - k) + s.latchesLeft using Nat.strong_induction_on generalizing k s a with
  | _ m ih =>
    cases hrun : s.halted
    · obtain ⟨t, hstep⟩ := exists_step hrun
      have hless := latchesLeft_of_advances (advances_of_step href.pipeline hstep) href.pipeline hrun
      have hnext : ∃ v, EndsIn t v ∧ v.untimed = u.untimed := by
        rcases href.step hgap hstep with ⟨hf, href'⟩ | ⟨hf, hahalt, b, href'⟩
        · rw [hf, Bool.toNat_false] at hless
          exact ih _ (by omega) href' hk rfl
        · rw [hf, Bool.toNat_true] at hless
          have hkn : k ≠ n := by
            rintro rfl
            obtain rfl : a = u := by simpa [href.run] using hu
            simp [hhalt] at hahalt
          exact ih _ (by omega) href' (by omega) rfl
      obtain ⟨v, hends, hv⟩ := hnext
      exact ⟨v, endsIn_of_step hstep hends, hv⟩
    · have hdrain := href.drain
      rw [drain_of_drained (href.pipeline.haltedDrained hrun)] at hdrain
      have hahalt : s.halted = a.halted := eq_of_untimed_eq (fun _ => rfl) hdrain
      obtain rfl := eq_of_seqRun_halted hk href.run (hahalt ▸ hrun) hu
      exact ⟨s, ⟨0, rfl, hrun⟩, hdrain⟩

end Sys2Proof.Machine

/-! SUPPORT. The image of the Data Store that the host reads (R16, R196). -/

namespace Sys2Proof.Machine

theorem length_dumpImage (s : State) : s.dumpImage.length = 256 := by simp [State.dumpImage, storeSize]

theorem getElem?_dumpImage (s : State) (a : Byte) : s.dumpImage[a.toNat]? = some (s.memRead a) := by
  have hlt : a.toNat < storeSize := a.isLt
  simp [State.dumpImage, State.memRead, List.getElem?_range hlt]

end Sys2Proof.Machine

/-! The statements on the host's reading and on running one instruction at a time. -/

namespace Sys2Proof.Proofs

open Sys2Proof Sys2Proof.Machine Sys2Proof.Claims

/-- Settles O47: every cycle keeps `Refines`, and the run it leads to ends (`Refines.ends`). The final states differ at most in
the cycles and data stalls counted. -/
theorem pipelineRefinesOneAtATime : Obligations.PipelineRefinesOneAtATime := by
  intro s u n hinv _ hempty hif hgap hu hhalt
  obtain ⟨t, hends, htu⟩ := (refines_start hinv hempty hif).ends hgap hu hhalt (Nat.zero_le n)
  exact ⟨t, hends, eq_of_untimed_eq (fun _ => rfl) htu, eq_of_untimed_eq (fun _ => rfl) htu,
    eq_of_untimed_eq (fun _ => rfl) htu,
    fun c => eq_of_untimed_eq (f := fun v => count v.stats c) (fun _ => by cases c <;> rfl) htu⟩

/-- Settles O6: the view holds the image of the Data Store; `hostView` and `State.launch` answer only where `halted` is set and
where the image is well formed. -/
theorem hostReadsAfterTheHaltOnly : Obligations.HostReadsAfterTheHaltOnly := by
  refine ⟨fun s hhalt => ?_, fun s hrun => ?_, fun cfg img hbad => ?_⟩
  · exact ⟨_, if_pos hhalt, length_dumpImage s, getElem?_dumpImage s, rfl, rfl⟩
  · simp [State.hostView, hrun]
  · simp [State.launch, hbad]

end Sys2Proof.Proofs

/-! SUPPORT. When a word decodes to a given instruction (R62, R68, R69), and a byte list that is no word (log entry 10). -/

namespace Sys2Proof

open Sys2Proof.Machine Sys2Proof.Claims

/-- A word stands for the instruction whose encoding it is, up to its ignored bits (R68), and for no other. -/
theorem decode_eq_iff {ir : Word} {i : Instr} : decode ir = i ↔ ir &&& fieldMask ir = encode i := by
  rw [← encode_decode]
  exact ⟨congrArg encode, fun h => by simpa using congrArg decode h⟩

@[simp] theorem decodeBytes_singleton (cfg : Config) (b : Byte) : decodeBytes cfg [b] = .error .truncated := rfl

end Sys2Proof

/-! The statement on the sample words of the encoding table. -/

namespace Sys2Proof.Proofs

open Sys2Proof Sys2Proof.Machine Sys2Proof.Claims

/-- Settles O1: each word, with its ignored bits clear, is the encoding of its instruction (`decode_eq_iff`). -/
theorem sampleWordsDecode : Obligations.SampleWordsDecode := by
  unfold Obligations.SampleWordsDecode
  simp only [decode_eq_iff]
  exact ⟨rfl, rfl, rfl, rfl, rfl, rfl, rfl, rfl, rfl, rfl, rfl, rfl, rfl, rfl, rfl, rfl, decodeBytes_singleton⟩

end Sys2Proof.Proofs

/-! SUPPORT. The cycle in which an instruction waits in `IDL` or issues from it (R90, R91, R105). -/

namespace Sys2Proof.Machine

section

variable {s t : State}

/-- The instruction in `IDL` issues unless it waits. -/
theorem issues_eq_not_waits (h : s.idOccupied = true) : s.issues = !s.waits := by simp [State.issues, State.waits, h]

theorem not_halted_of_not_drained (hinv : PipelineInv s) (h : ¬ s.drained) : s.halted = false :=
  Bool.eq_false_iff.2 fun hh => h (hinv.haltedDrained hh)

theorem not_halted_of_idOccupied (hinv : PipelineInv s) (h : s.idOccupied = true) : s.halted = false :=
  not_halted_of_not_drained hinv fun ⟨hid, _⟩ => by simp [h] at hid

theorem not_ctrlInMem_of_empty (h : s.memOccupied = false) : ¬ s.ctrlInMem := fun ⟨hocc, _⟩ => by simp [h] at hocc

theorem not_busy_of_issuedDone (hinv : PipelineInv s) (h : s.issuedDone) (r : RegIdx) : s.isBusy r = false := by
  obtain ⟨hex, hmem, hwb⟩ := h
  refine Bool.eq_false_iff.2 fun hr => ?_
  simpa [State.writesInFlight, hex, hmem, hwb] using hinv.busyInFlight r hr

/-- An instruction that issues leaves for `EXL` with its operands as they stand after WB, the only stage that writes a register,
so as the step leaves them (R86, R91). -/
theorem step_exl (hinv : PipelineInv s) (h : step s = .next t) (hissues : s.issues = true) :
    t.exOccupied = true ∧ t.exl =
      { ir := s.idl.ir, pc := s.idl.pc, a := (operands s.idInstr t).1, b := (operands s.idInstr t).2 } := by
  have adv := advances_of_step hinv h
  have hocc : t.exOccupied = true := adv.ex.1.trans hissues
  obtain ⟨-, w, m, e, d, hw, hm, he, hd, rfl⟩ := step_eq_next.1 h
  have hops : operands s.idInstr (ifStage d).countCycle.rest = operands s.idInstr (e.atStage .id) :=
    operands_congr fun r _ => x_congr (by rw [ifStage_frame d, idStage_frame hd]; rfl) r
  have hempty := (atId hinv hw hm he).exEmpty
  refine ⟨hocc, ?_⟩
  rw [hops]
  rw [ifStage_frame d] at hocc ⊢
  rcases idStage_inv hd with ⟨-, rfl⟩ | ⟨-, -, -, -, -, ⟨-, rfl⟩ | ⟨-, rfl⟩⟩
  · simp [hempty] at hocc
  · simp [hempty] at hocc
  · rw [idInstr_at_id hw hm he, ← idl_at_id hw hm he]
    rfl

theorem run_of_step (h : step s = .next t) (n : Nat) :
    Host.Core.run Sys2Proof.core (n + 1) s = Host.Core.run Sys2Proof.core n t := by
  simp [Host.Core.run, Sys2Proof.core, h]

/-- No instruction waits longer than `waitLeft` says, and each cycle it waits is one data stall. -/
theorem issues_after_waiting (n : Nat) (hinv : PipelineInv s) (hcfg : s.cfg.ctrWidth = none) (hid : s.idOccupied = true)
    (hn : s.waitLeft ≤ n) :
    ∃ k t, k ≤ n ∧ Host.Core.run Sys2Proof.core k s = .next t ∧ PipelineInv t ∧ t.cfg = s.cfg ∧ t.issues = true ∧
      t.idl = s.idl ∧ t.stats.dataStalls = s.stats.dataStalls + k := by
  induction n generalizing s with
  | zero =>
    have hwaits : s.waits = false := Bool.eq_false_iff.2 fun hw => by
      obtain ⟨t, h⟩ := exists_step (not_halted_of_idOccupied hinv hid)
      have hless := (advances_of_step hinv h).waitLeft hinv hw
      omega
    exact ⟨0, s, le_rfl, rfl, hinv, rfl, by simp [issues_eq_not_waits hid, hwaits], rfl, rfl⟩
  | succ n ih =>
    cases hwaits : s.waits
    · exact ⟨0, s, Nat.zero_le _, rfl, hinv, rfl, by simp [issues_eq_not_waits hid, hwaits], rfl, rfl⟩
    · obtain ⟨u, h⟩ := exists_step (not_halted_of_idOccupied hinv hid)
      have adv := advances_of_step hinv h
      have hless := adv.waitLeft hinv hwaits
      obtain ⟨hocc, hkept, -⟩ := adv.id
      have hucfg := step_cfg h
      obtain ⟨k, t, hk, hrun, hinv', hcfg', hissues, hidl, hstalls⟩ :=
        ih (step_keeps_pipelineInv hinv h) (by rw [hucfg, hcfg]) (by simp [hocc, hwaits]) (by omega)
      refine ⟨k + 1, t, by omega, (run_of_step h k).trans hrun, hinv', hcfg'.trans hucfg, hissues, hidl.trans (hkept hwaits), ?_⟩
      rw [hstalls, (counts_of_step hcfg hinv h).dataStalls, hwaits, Bool.toNat_true]
      omega

end

end Sys2Proof.Machine

/-! The statements on the pipeline invariant and on waiting for operands. -/

namespace Sys2Proof.Proofs

open Sys2Proof Sys2Proof.Machine Sys2Proof.Claims

/-- Settles O43: `step_keeps_pipelineInv`, from where one cycle takes every latch, stall flag and busy bit (`Advances`). -/
theorem stepsKeepThePipelineInvariant : Obligations.StepsKeepThePipelineInvariant :=
  fun _ _ hinv h => step_keeps_pipelineInv hinv h

/-- Settles O34: the latches of `Advances`; the instruction in `IDL` waits there, and then nothing is fetched or flushed, or it
issues. -/
theorem everyIssuedInstructionAdvances : Obligations.EveryIssuedInstructionAdvances := by
  intro s t hinv h
  have adv := advances_of_step hinv h
  refine ⟨adv.wb.1, adv.wb.2, adv.mem.1, adv.mem.2, fun hid => ?_⟩
  have hissues := issues_eq_not_waits hid
  cases hwaits : s.waits
  · rw [hwaits] at hissues
    exact .inl ⟨adv.ex.1.trans hissues, adv.ex.2 hissues⟩
  · obtain ⟨-, -, hctrl⟩ := free_of_idOccupied hinv hid
    rw [hwaits] at hissues
    exact .inr ⟨adv.ex.1.trans hissues, by simp [adv.id.1, hwaits], adv.id.2.1 hwaits,
      adv.pc_kept (not_fetches_of_waits hwaits) (not_flushes hctrl)⟩

/-- Settles O36: `issues_after_waiting`, from a wait of at most two cycles; the cycle that issues counts no data stall. -/
theorem dataStallsLastAtMostTwoCycles : Obligations.DataStallsLastAtMostTwoCycles := by
  intro s hinv hcfg hid
  obtain ⟨k, t, hk, hrun, hinv', hcfg', hissues, hidl, hstalls⟩ :=
    issues_after_waiting 2 hinv hcfg hid (waitLeft_le_two s)
  have htid := idOccupied_of_issues hissues
  obtain ⟨u, h⟩ := exists_step (not_halted_of_idOccupied hinv' htid)
  obtain ⟨hex, hlatch⟩ := (advances_of_step hinv' h).ex
  have hnone := (counts_of_step (by rw [hcfg', hcfg]) hinv' h).dataStalls
  obtain ⟨hir, hpc⟩ := hlatch hissues
  rw [not_waits_of_issues hissues] at hnone
  rw [hidl] at hir hpc
  exact ⟨k, t, u, hk, hrun, h, htid, hidl, hstalls, hex.trans hissues, hir, hpc, hnone⟩

/-- Settles O37: a halted state is drained, so nothing in it holds a stall flag or a busy bit; nothing is fetched or flushed in the
cycle in which the HALT retires. -/
theorem haltLeavesThePipelineEmpty : Obligations.HaltLeavesThePipelineEmpty := by
  intro s t hinv h hhalt
  have hinv' := step_keeps_pipelineInv hinv h
  have adv := advances_of_step hinv h
  obtain ⟨hid, hex, hmem, hwb⟩ := hinv'.haltedDrained hhalt
  have hseen : t.haltSeen = true := hinv'.haltSeen.2 (.inr (.inr (.inr hhalt)))
  have hwbHalt : s.haltInWb := adv.halted_iff.1 hhalt
  obtain ⟨-, -, hfetch⟩ := idle_of_haltSeen hinv (hinv.haltSeen.2 (.inr (.inr (.inl hwbHalt))))
  have hflush : s.branchFlushes = false := not_flushes (not_ctrlInMem_of_empty (hinv.haltYoungestWb hwbHalt).2)
  refine ⟨⟨hid, hex, hmem, hwb⟩, ?_, ?_, hinv'.memWbNotStalled.1, hinv'.memWbNotStalled.2,
    not_busy_of_issuedDone hinv' ⟨hex, hmem, hwb⟩, hinv'.haltStopsFetch.1 hseen, hseen, ?_⟩
  · exact Bool.eq_false_iff.2 fun hst => by simpa [State.ctrlInEx, State.ctrlInMem, hex, hmem] using hinv'.idStalled.1 hst
  · exact Bool.eq_false_iff.2 fun hst => not_ctrlInMem_of_empty hmem (hinv'.exStalled.1 hst)
  · rw [adv.pc_kept hfetch hflush, hinv.pcPastHaltWb hwbHalt]

/-- Refutes O44: behind the word 0x0000 at address 0, which is ADD r0, r0, r0 (R70), a JMP at address 2 issues in the third cycle.
After it the ADD is in `MEML` and the JMP in `EXL`, with the control stall held. -/
theorem not_controlStallEmptiesExecuteAndMemory : ¬ Obligations.ControlStallEmptiesExecuteAndMemory := by
  intro h
  have hreached : ∃ t, ReachedFrom Config.default { imem := [0x00, 0x00, 0xA0] } 3 t ∧
      t.idStalled = true ∧ t.exOccupied = true ∧ t.memOccupied = true := ⟨_, ⟨_, rfl, rfl⟩, rfl, rfl, rfl⟩
  obtain ⟨t, hrun, hst, hex, hmem⟩ := hreached
  exact h _ _ _ t hrun hst ⟨hex, hmem⟩

end Sys2Proof.Proofs

/-! SUPPORT. The stage functions as the pseudo-code over the bits of the word (R87 to R99): the decoded instruction's attributes
as columns of the word, and what each stage action leaves, up to the model's stage signal. -/

namespace Sys2Proof.Machine

open Sys2Proof.Claims

/-! ## The instruction of a word, column by column (R69, R89, R91) -/

section

variable (ir : Word)

theorem opN_lt : opN ir < 16 := op_toNat ir ▸ ir.op.isLt

theorem srcs_decode : srcs (decode ir) = tested ir := (Proofs.decodeFollowsTheNibbles ir).2.1
theorem dst_decode : dst (decode ir) = marked ir := (Proofs.decodeFollowsTheNibbles ir).2.2.1
theorem instrClass_decode : instrClass (decode ir) = classN ir := (Proofs.decodeFollowsTheNibbles ir).2.2.2

theorem isControl_decode : isControl (decode ir) = decide (opN ir = 10 ∨ opN ir = 11) := by
  have hlt := opN_lt ir
  simp only [isControl, instrClass_decode, classN]
  generalize opN ir = k at hlt
  interval_cases k <;> rfl

theorem decode_eq_halt : decode ir = .halt ↔ opN ir = 15 := by
  have hlt := opN_lt ir
  simp only [eq_halt_iff, instrClass_decode, classN]
  generalize opN ir = k at hlt
  interval_cases k <;> simp

theorem operands_decode (s : State) : operands (decode ir) s = (operandA ir s, operandB ir s) := by
  have hlt := opN_lt ir
  simp only [operandA, operandB, (Proofs.decodeFollowsTheNibbles ir).1]
  generalize opN ir = k at hlt
  interval_cases k <;> rfl

variable {ir}

theorem decode_load (h : opN ir = 8) : decode ir = .load (r1 ir) (r2 ir) (BitVec.ofNat 4 ir.toNat) := by
  simp [(Proofs.decodeFollowsTheNibbles ir).1, h]

theorem decode_store (h : opN ir = 9) : decode ir = .store (r1 ir) (r2 ir) (BitVec.ofNat 4 ir.toNat) := by
  simp [(Proofs.decodeFollowsTheNibbles ir).1, h]

/-- Every word but a LOAD carries `alu` to WB (R95). -/
theorem memVal_decode (h : opN ir ≠ 8) (s : State) : s.memVal (decode ir) = s.meml.alu := by
  have hlt := opN_lt ir
  rw [(Proofs.decodeFollowsTheNibbles ir).1]
  generalize opN ir = k at hlt h
  interval_cases k <;> simp_all [State.memVal]

/-- Every word but a STORE, a JMP or a BEQZ leaves to MEM nothing but to pass it on (R95). -/
theorem memActed_decode (hstore : opN ir ≠ 9) (hctrl : ¬ (opN ir = 10 ∨ opN ir = 11)) (s : State) :
    s.memActed (decode ir) = s.consumeMem := by
  have hlt := opN_lt ir
  rw [(Proofs.decodeFollowsTheNibbles ir).1]
  generalize opN ir = k at hlt hstore hctrl
  interval_cases k <;> simp_all [State.memActed]

end

theorem result_eq_condN (s : State) : (result s.exInstr s).2 = condN s := by
  have hlt := opN_lt s.exl.ir
  simp only [condN, State.exInstr, (Proofs.decodeFollowsTheNibbles s.exl.ir).1]
  generalize opN s.exl.ir = k at hlt
  interval_cases k <;> simp [result, ← BitVec.toNat_inj, Bool.beq_eq_decide_eq]

/-! ## The fetched word and the next address as numbers (R43, R87) -/

theorem append_eq_ofNat (hi lo : Byte) : (hi ++ lo : BitVec 16) = BitVec.ofNat 16 (256 * hi.toNat + lo.toNat) := by
  have := hi.isLt
  have := lo.isLt
  apply BitVec.eq_of_toNat_eq
  rw [BitVec.toNat_append, BitVec.toNat_ofNat, ← Nat.shiftLeft_add_eq_or_of_lt lo.isLt, Nat.shiftLeft_eq]
  omega

theorem fetchWord_eq_ofNat (s : State) (a : Byte) : s.fetchWord a =
    if s.cfg.ifetchBigEndian = true then BitVec.ofNat 16 (256 * (s.imemRead a).toNat + (s.imemRead (a + 1)).toNat)
    else BitVec.ofNat 16 (256 * (s.imemRead (a + 1)).toNat + (s.imemRead a).toNat) := by
  simp only [State.fetchWord, wordOfBytes, append_eq_ofNat]

/-! ## The stage actions, up to the stage signal -/

/-- The stage signal has no meaning (log entry 2), so what a stage action leaves is seen as if the signal were at rest. -/
theorem seen_next_of_eq {s t : State} (st : Stage) (h : s = t.atStage st) : seen (.next s) = seen (.next t) := by
  rw [h]
  rfl

end Sys2Proof.Machine

/-! The statements on a step and its stage functions. -/

namespace Sys2Proof.Proofs

open Sys2Proof Sys2Proof.Machine Sys2Proof.Claims

/-- Settles O9: the fetch is that of the word at `PC` (`fetchWord_eq_ofNat`), and `PC + 2` wraps modulo 256. -/
theorem fetchStageFollowsItsRule : Obligations.FetchStageFollowsItsRule := by
  intro s
  rcases ifStage_cases s with ⟨hidle, h⟩ | ⟨hif, hfl, hid, hst, h⟩
  · rw [h]
    rcases hidle with hi | hi | hi | hi <;> simp [hi]
  · rw [h, State.fetch, fetchWord_eq_ofNat]
    simp [hif, hfl, hid, hst, BitVec.ofNat_add]

/-- Settles O10: the attributes of the instruction in `IDL` are the columns of its word. -/
theorem decodeStageFollowsItsRules : Obligations.DecodeStageFollowsItsRules := by
  intro s
  rcases idStage_cases s with ⟨hidle, h⟩ | ⟨hocc, hst, hseen, hex, hexst, hact⟩
  · rw [h]
    rcases hidle with hi | hi | hi | hi | hi <;> simp [hi]
  · rw [srcs_decode] at hact
    rw [if_neg (by simp [hocc, hst, hseen]), if_neg (by simp [hex, hexst])]
    rcases hact with ⟨hz, h⟩ | ⟨hz, h⟩ <;> rw [h]
    · rw [if_pos ((hazard_iff s _).1 hz)]
      rfl
    · rw [if_neg (by rw [← hazard_iff, hz]; nofun)]
      refine seen_next_of_eq .id ?_
      have hops : operands (decode s.idl.ir) (s.atStage .id) = (operandA s.idl.ir s, operandB s.idl.ir s) :=
        operands_decode _ _
      rw [State.issued, hops]
      simp only [dst_decode, isControl_decode, decode_eq_halt]
      rcases marked s.idl.ir with _ | d <;> by_cases hctrl : opN s.idl.ir = 10 ∨ opN s.idl.ir = 11 <;>
        by_cases hhalt : opN s.idl.ir = 15 <;> simp [hctrl, hhalt, State.atStage]

/-- Settles O11: `alu` and `cond` are the rows of R93 (`result_eq_aluN`, `result_eq_condN`). -/
theorem executeStageFollowsItsRules : Obligations.ExecuteStageFollowsItsRules := by
  intro s
  rcases exStage_cases s with ⟨hidle, h⟩ | ⟨hocc, hst, hmem, hmst, h⟩ <;> rw [h]
  · rcases hidle with hi | hi | hi | hi <;> simp [hi]
  · rw [if_neg (by simp [hocc, hst]), if_neg (by simp [hmem, hmst])]
    refine seen_next_of_eq .ex ?_
    have halu : (result (decode s.exl.ir) (s.atStage .ex)).1 = aluN s := result_eq_aluN (s.atStage .ex)
    have hcond : (result (decode s.exl.ir) (s.atStage .ex)).2 = condN s := result_eq_condN (s.atStage .ex)
    rw [halu, hcond, isControl_decode]
    by_cases hctrl : opN s.exl.ir = 10 ∨ opN s.exl.ir = 11 <;> simp [hctrl, State.toMem, State.atStage]

/-- Settles O12: by opcode, LOAD and STORE access the Data Store, JMP and BEQZ match or flush, and any other word is passed on. -/
theorem memoryStageFollowsItsRules : Obligations.MemoryStageFollowsItsRules := by
  intro s
  rcases memStage_cases s with ⟨hidle, h⟩ | ⟨hocc, hst, hwb, hwst, h⟩ <;> rw [h]
  · rcases hidle with hi | hi | hi | hi <;> simp [hi]
  · rw [if_neg (by simp [hocc, hst]), if_neg (by simp [hwb, hwst])]
    refine seen_next_of_eq .mem ?_
    by_cases hload : opN s.meml.ir = 8
    · rw [decode_load hload, if_pos hload]
      rfl
    by_cases hstore : opN s.meml.ir = 9
    · rw [decode_store hstore, if_neg hload, if_pos hstore, ← addrOf_eq]
      rfl
    by_cases hctrl : opN s.meml.ir = 10 ∨ opN s.meml.ir = 11
    · obtain ⟨-, -, hact, -⟩ := actions_of_control (i := decode s.meml.ir) (by simp [isControl_decode, hctrl])
      rw [if_neg hload, if_neg hstore, if_pos hctrl, hact, memVal_decode hload]
      by_cases hmatch : s.meml.alu = s.pc
      · have hresolve := resolve_match (s.atStage .mem).consumeMem hmatch
        rw [if_pos hmatch, atStage_meml, hresolve]
        rfl
      · have hresolve := resolve_differ (s.atStage .mem).consumeMem hmatch
        rw [if_neg hmatch, atStage_meml, hresolve]
        rfl
    · rw [if_neg hload, if_neg hstore, if_neg hctrl, memActed_decode hstore hctrl, memVal_decode hload]
      rfl

/-- Settles O13: a retirement (`retired_eq`) with the destination and the class read from the word. -/
theorem writebackStageFollowsItsRules : Obligations.WritebackStageFollowsItsRules := by
  intro s
  rcases wbStage_cases s with ⟨hidle, h⟩ | ⟨hocc, hst, h⟩ <;> rw [h]
  · rcases hidle with hi | hi <;> simp [hi]
  · rw [if_neg (by simp [hocc, hst]), retired_eq]
    refine seen_next_of_eq .wb ?_
    simp only [dst_decode, instrClass_decode, decode_eq_halt, marked]
    by_cases hdst : opN s.wbl.ir ≤ 8 <;> by_cases hzero : r1 s.wbl.ir = 0 <;> simp [hdst, hzero, State.atStage]

/-- Settles O20: the hazard check finds the busy source. -/
theorem busySourceHoldsTheInstruction : Obligations.BusySourceHoldsTheInstruction := by
  intro i s r hstage hsrc hbusy
  rw [exec_id i s hstage, if_pos ((hazard_iff s _).2 ⟨r, hsrc, hbusy⟩)]
  rfl

/-- Settles O7: a step is the five stage evaluations (`step_eq_next`), and a stage that nothing holds up runs `act`, which is `exec`
of the word in its latch. After `withFetchWord` the older latches are empty, and the word in `IDL` is the one placed at `PC`. -/
theorem stepRunsTheDecodedInstructions : Obligations.StepRunsTheDecodedInstructions := by
  refine ⟨fun s hrun => ?_, fun s hocc hst => ?_, fun s hocc hst hwb hwst => ?_, fun s hocc hst hmem hmst => ?_,
    fun s hocc hst hseen hex hexst => ?_, fun s w hwf hw => ?_⟩
  · obtain ⟨t, h⟩ := exists_step hrun
    obtain ⟨-, w, m, e, d, hw, hm, he, hd, rfl⟩ := step_eq_next.1 h
    exact ⟨w, m, e, d, hw, hm, he, hd, h⟩
  · simp [wbStage, hocc, hst, act, State.atStage]
  · simp [memStage, hocc, hst, hwb, hwst, act, State.atStage]
  · simp [exStage, hocc, hst, hmem, hmst, act, State.atStage]
  · simp [idStage, hocc, hst, hseen, hex, hexst, act, State.atStage]
  · have hplaced : w % 2 ^ 16 = w := Nat.mod_eq_of_lt hw
    have hword : (s.withFetchWord 16 w).idl = { ir := BitVec.ofNat 16 w, pc := s.pc } := by
      rw [State.withFetchWord, hplaced]
      exact congrArg (IdLatch.mk · s.pc) (fetchWord_imemLoadWord s s.pc _ hwf)
    obtain ⟨d, hd⟩ := exec_next (decode (BitVec.ofNat 16 w)) ((s.withFetchWord 16 w).rest.atStage .id)
    have hid : idStage (s.withFetchWord 16 w).rest = act .id (s.withFetchWord 16 w).idl.ir (s.withFetchWord 16 w).rest := rfl
    rw [hword] at hid
    exact ⟨d, hd, step_eq_next.2 ⟨rfl, _, _, _, d, rfl, rfl, rfl, hid.trans hd, rfl⟩, hword⟩

end Sys2Proof.Proofs

/-! SUPPORT. One cycle of a pipeline in which nothing retires, and the instruction that follows an empty pipeline from latch to
latch, beside the same instruction passing alone (R104, R206). -/

namespace Sys2Proof.Machine

open Sys2Proof.Claims

section

variable {s t : State}

/-! ## The register file and the class counters over a step -/

theorem regs_ext (h : ∀ r, s.x r = t.x r) : s.regs = t.regs := Vector.ext fun i hi => h ⟨i, hi⟩

/-- The register file after a step is the one a retirement leaves, or the old one (R86). -/
theorem step_x_writeReg (h : step s = .next t) {d : RegIdx} (hret : s.retires = true) (hdst : dst s.wbInstr = some d)
    (r : RegIdx) : t.x r = (s.writeReg d s.wbl.val).x r := by
  rw [step_x h, x_writeReg, hdst]
  by_cases hdr : d = r
  · subst hdr; simp [hret]
  · simp [hdr]

/-- ID counts stalls and the end of the cycle counts the cycle, so a class is counted only where WB retires it (R99). -/
theorem step_count (h : step s = .next t) (c : InstrClass) :
    count t.stats c =
      count (if s.retires = true then counted s.cfg s.stats (instrClass s.wbInstr) else s.stats) c := by
  obtain ⟨-, w, m, e, d, hw, hm, he, hd, rfl⟩ := step_eq_next.1 h
  have hlast : count (ifStage d).countCycle.rest.stats c = count d.stats c := by
    rw [ifStage_frame d]
    cases c <;> rfl
  have hid : count d.stats c = count e.stats c := by
    rcases idStage_stats hd with hst | ⟨hst, -⟩ | ⟨hst, -⟩ <;> rw [hst] <;> cases c <;> rfl
  rw [hlast, hid, stats_at_id hm he, wbStage_stats hw]
  rfl

/-- Nothing that a retirement changes has changed from `s` to `t` (R98, R99); the configuration never does. -/
structure NothingRetired (s t : State) : Prop where
  regs : t.regs = s.regs
  counts : ∀ c, count t.stats c = count s.stats c
  cfg : t.cfg = s.cfg

theorem NothingRetired.trans {u : State} (h : NothingRetired s t) (h' : NothingRetired t u) : NothingRetired s u :=
  ⟨h'.regs.trans h.regs, fun c => (h'.counts c).trans (h.counts c), h'.cfg.trans h.cfg⟩

theorem nothingRetired_of_wbEmpty (h : step s = .next t) (hwb : s.wbOccupied = false) : NothingRetired s t := by
  have hret : s.retires = false := by simp [State.retires, hwb]
  exact ⟨regs_ext fun r => by simp [step_x h r, hret], fun c => by simp [step_count h c, hret], step_cfg h⟩

/-- Without a STORE in `MEML` a step writes no byte of the Data Store (R86). -/
theorem step_dmem_of_no_store (h : step s = .next t)
    (hno : s.memOccupied = true → ∀ v b imm4, s.memInstr ≠ .store v b imm4) : t.dmem = s.dmem := by
  obtain ⟨-, w, m, e, d, hw, hm, he, hd, rfl⟩ := step_eq_next.1 h
  have hlast : (ifStage d).countCycle.rest.dmem = m.dmem := by
    rw [ifStage_frame d, idStage_frame hd, exStage_frame he]
    rfl
  have hwdmem : w.dmem = s.dmem := (meml_dmem_at_mem hw).2
  rcases memStage_dmem hm with hkept | ⟨v, b, imm4, hocc, hi, -⟩
  · rw [hlast, hkept, hwdmem]
  · rw [wbStage_frame hw] at hocc hi
    exact absurd hi (hno hocc v b imm4)

theorem step_dmem_of_memEmpty (h : step s = .next t) (hmem : s.memOccupied = false) : t.dmem = s.dmem :=
  step_dmem_of_no_store h fun hocc => by simp [hmem] at hocc

/-- A fetch takes up the word at `PC` (R87). -/
theorem step_fetch (hinv : PipelineInv s) (h : step s = .next t) (hf : s.fetches = true) :
    t.idOccupied = true ∧ t.idl = s.fetch.idl ∧ t.pc = s.pc + 2 := by
  have adv := advances_of_step hinv h
  have hpc : t.pc = s.pc + 2 := by simp [adv.pc, hf, of_fetches hf]
  have hocc : t.idOccupied = true := by simp [adv.id.1, hf]
  refine ⟨hocc, ?_, hpc⟩
  rcases Proofs.onlyFetchAndFlushWriteThePc s t h with hkept | ⟨-, -, hidl⟩ | ⟨-, -, hid⟩
  · simp [hpc] at hkept
  · exact hidl
  · simp [hid] at hocc

/-! ## What the stage actions read of the state -/

/-- EX reads `PC` only for a control instruction (R93). -/
theorem result_congr_of_control {i : Instr} (hexl : s.exl = t.exl) (hcfg : s.cfg = t.cfg)
    (hpc : isControl i = true → s.pc = t.pc) : result i s = result i t := by
  cases hi : isControl i
  · cases i with
    | jmp imm8 => cases hi
    | beqz c imm8 => cases hi
    | _ => simp [result, hexl, hcfg]
  · exact result_congr hexl (hpc hi) hcfg i

/-- A control instruction leaves `PC` at its target, on a match as on a difference, and no other instruction changes `PC` in MEM
(R96, R97). -/
theorem accessed_pc (s : State) (i : Instr) : (s.accessed i).pc = if isControl i = true then s.meml.alu else s.pc := by
  rcases memActed_cases s i with ⟨hi, -, ha⟩ | ⟨_, _, _, rfl, ha⟩ | ⟨hi, hpc, ha⟩ | ⟨hi, -, ha⟩ <;> rw [State.accessed, ha]
  · rw [if_neg (by simp [hi])]
    rfl
  · rfl
  · rw [if_pos hi, hpc]
    rfl
  · rw [if_pos hi]
    rfl

theorem accessed_dmem (s : State) (i : Instr) : (∃ v b imm4, i = .store v b imm4 ∧
      (s.accessed i).dmem = (s.memWrite s.meml.alu (s.x v)).dmem) ∨
    ((∀ v b imm4, i ≠ .store v b imm4) ∧ (s.accessed i).dmem = s.dmem) := by
  rcases memActed_cases s i with ⟨-, hno, ha⟩ | ⟨v, b, imm4, hi, ha⟩ | ⟨hi, -, ha⟩ | ⟨hi, -, ha⟩ <;> rw [State.accessed, ha]
  · exact .inr ⟨hno, rfl⟩
  · exact .inl ⟨v, b, imm4, hi, rfl⟩
  · exact .inr ⟨fun _ _ _ h => by simp [h, isControl, instrClass] at hi, rfl⟩
  · exact .inr ⟨fun _ _ _ h => by simp [h, isControl, instrClass] at hi, rfl⟩

/-- What a class counts to depends on the class counters alone. -/
theorem count_counted_congr (cfg : Config) {x y : Stats} (h : ∀ c, count x c = count y c) (o : Option InstrClass)
    (c : InstrClass) : count (counted cfg x o) c = count (counted cfg y o) c := by
  rcases o with _ | k
  · exact h c
  · have hk : countUp cfg (count x k) 1 = countUp cfg (count y k) 1 := by rw [h k]
    have hc := h c
    cases k <;> cases c <;> assumption

end

/-! ## The instruction at `PC` alone -/

/-- `s` after the instruction at `PC` was fetched, and ID, EX, MEM and WB in turn acted on it alone. -/
def State.aloneEx (s : State) : State := s.fetch.issued s.nextInstr
def State.aloneMem (s : State) : State := s.aloneEx.executed s.nextInstr
def State.aloneWb (s : State) : State := s.aloneMem.accessed s.nextInstr
def State.alone (s : State) : State := s.aloneWb.retired s.nextInstr

section

variable {s : State}

/-- What `runAlone` answers differs from `State.alone` in timing alone. -/
theorem runAlone_nextInstr (hfree : ∀ r, s.isBusy r = false) :
    ∃ u, runAlone s.nextInstr s.fetch = .next u ∧ u.regs = s.alone.regs ∧ u.dmem = s.aloneWb.dmem ∧ u.pc = s.alone.pc ∧
      u.halted = s.alone.halted ∧ ∀ c, count u.stats c = count s.alone.stats c := by
  have hz : s.fetch.hazard (srcs s.nextInstr) = false := Bool.eq_false_iff.2 fun hh => by
    obtain ⟨r, -, hr⟩ := (hazard_iff _ _).1 hh
    exact Bool.eq_false_iff.1 (hfree r) hr
  have hdrain : s.fetch.drainId = s.alone := drainId_eq rfl
  have halone := throughMem_untimed (s := s.fetch) rfl
  rw [hdrain] at halone
  have hdmem : s.alone.dmem = s.aloneWb.dmem := by rw [State.alone, retired_frame]
  exact ⟨_, runAlone_of_passes (passes_of_free hz), eq_of_untimed_eq (fun _ => rfl) halone,
    (eq_of_untimed_eq (fun _ => rfl) halone).trans hdmem, eq_of_untimed_eq (fun _ => rfl) halone,
    eq_of_untimed_eq (fun _ => rfl) halone,
    fun c => eq_of_untimed_eq (f := fun v => count v.stats c) (fun _ => by cases c <;> rfl) halone⟩

/-- Before WB the instruction alone has touched neither a register nor a class counter. -/
theorem aloneWb_keeps : s.aloneWb.regs = s.regs ∧ s.aloneWb.halted = s.halted ∧ s.aloneWb.cfg = s.cfg ∧
    ∀ c, count s.aloneWb.stats c = count s.stats c := by
  rw [State.aloneWb, accessed_frame]
  refine ⟨rfl, rfl, rfl, fun c => ?_⟩
  have hstats : s.aloneMem.stats = (s.fetch.issued s.nextInstr).stats := rfl
  rw [hstats, State.issued]
  cases isControl s.nextInstr <;> cases c <;> rfl

theorem alone_pc : s.alone.pc = if isControl s.nextInstr = true then s.aloneMem.meml.alu else s.pc + 2 := by
  rw [State.alone, retired_frame]
  exact accessed_pc s.aloneMem s.nextInstr

end

/-! ## The same instruction in the pipeline -/

/-- What the instruction at `s`'s `PC` finds in a later state `t` while it is the oldest in flight: the pipeline invariant, and
registers and class counters as they were. -/
structure Leads (s t : State) : Prop extends NothingRetired s t where
  inv : PipelineInv t

/-- It is in `IDL`, with what that latch holds when it passes alone, and `PC` is just past it. -/
structure LeadsInId (s t : State) : Prop extends Leads s t where
  latch : t.idOccupied = true ∧ t.idl = s.fetch.idl
  first : t.issuedDone
  dmem : t.dmem = s.dmem
  pc : t.pc = s.pc + 2

/-- It is in `EXL`, likewise; `PC` is still just past it if it is a control instruction, whose target EX takes from it. -/
structure LeadsInEx (s t : State) : Prop extends Leads s t where
  latch : t.exOccupied = true ∧ t.exl = s.aloneEx.exl
  first : t.memOccupied = false ∧ t.wbOccupied = false
  dmem : t.dmem = s.dmem
  pc : isControl s.nextInstr = true → t.pc = s.pc + 2

/-- It is in `MEML`, likewise. -/
structure LeadsInMem (s t : State) : Prop extends Leads s t where
  latch : t.memOccupied = true ∧ t.meml = s.aloneMem.meml
  first : t.wbOccupied = false
  dmem : t.dmem = s.dmem

/-- It is in `WBL`, likewise, and MEM has acted on it. -/
structure LeadsInWb (s t : State) : Prop extends Leads s t where
  latch : t.wbOccupied = true ∧ t.wbl = s.aloneWb.wbl
  dmem : t.dmem = s.aloneWb.dmem

section

variable {s t u : State}

theorem Leads.step (h : Leads s t) (hstep : step t = .next u) (hwb : t.wbOccupied = false) : Leads s u :=
  ⟨h.toNothingRetired.trans (nothingRetired_of_wbEmpty hstep hwb), step_keeps_pipelineInv h.inv hstep⟩

/-- Nothing keeps an empty pipeline that may fetch from fetching. -/
theorem fetches_of_drained (hempty : s.drained) (hif : s.ifOccupied = true) : s.fetches = true := by
  obtain ⟨hid, hex, hmem, -⟩ := hempty
  obtain ⟨hwaits, hissues⟩ := idle_of_idEmpty hid
  have hflush : s.branchFlushes = false := not_flushes (not_ctrlInMem_of_empty hmem)
  simp [State.fetches, State.issuesHalt, State.issuesControl, hif, hwaits, hissues, hflush, hex]

theorem leadsInId_of_step (hinv : PipelineInv s) (hempty : s.drained) (hif : s.ifOccupied = true)
    (hstep : step s = .next t) : LeadsInId s t := by
  have adv := advances_of_step hinv hstep
  have hf := fetches_of_drained hempty hif
  obtain ⟨hid, hex, hmem, hwb⟩ := hempty
  obtain ⟨hocc, hidl, hpc⟩ := step_fetch hinv hstep hf
  exact {
    toNothingRetired := nothingRetired_of_wbEmpty hstep hwb
    inv := step_keeps_pipelineInv hinv hstep
    latch := ⟨hocc, hidl⟩
    first := ⟨adv.ex.1.trans (idle_of_idEmpty hid).2, adv.mem.1.trans hex, adv.wb.1.trans hmem⟩
    dmem := step_dmem_of_memEmpty hstep hmem
    pc := hpc }

theorem LeadsInId.idInstr (h : LeadsInId s t) : t.idInstr = s.nextInstr := by
  rw [State.idInstr, h.latch.2]
  rfl

/-- Nothing is in flight that it could wait for. -/
theorem LeadsInId.issues (h : LeadsInId s t) : t.issues = true := by
  have hany : (srcs t.idInstr).any t.busyAtId = false := List.any_eq_false.2 fun r _ => by
    simp [State.busyAtId, not_busy_of_issuedDone h.inv h.first r]
  simp [State.issues, h.latch.1, hany]

/-- The cycle in which it issues fetches the next word, unless it is a control instruction or a HALT (R92). -/
theorem LeadsInId.fetches (h : LeadsInId s t) (hctrl : isControl s.nextInstr = false) (hhalt : s.nextInstr ≠ .halt) :
    t.fetches = true := by
  obtain ⟨hseen, hex, hmem⟩ := free_of_idOccupied h.inv h.latch.1
  have hif : t.ifOccupied = true := by simp [ifOccupied_eq h.inv, hseen]
  simp [State.fetches, State.issuesHalt, State.issuesControl, h.idInstr, hctrl, hhalt, hif, decide_eq_false hex,
    not_flushes hmem, not_waits_of_issues h.issues]

theorem LeadsInId.step (h : LeadsInId s t) (hstep : step t = .next u) : LeadsInEx s u := by
  have adv := advances_of_step h.inv hstep
  obtain ⟨hex, hmem, hwb⟩ := h.first
  have hleads := h.toLeads.step hstep hwb
  obtain ⟨hocc, hexl⟩ := step_exl h.inv hstep h.issues
  have hops : operands s.nextInstr u = operands s.nextInstr s.fetch := operands_congr fun r _ => x_congr hleads.regs r
  rw [h.idInstr, hops, h.latch.2] at hexl
  exact {
    toLeads := hleads
    latch := ⟨hocc, hexl⟩
    first := ⟨adv.mem.1.trans hex, adv.wb.1.trans hmem⟩
    dmem := (step_dmem_of_memEmpty hstep hmem).trans h.dmem
    pc := fun hctrl => by
      have hissues : t.issuesControl = true := by simp [State.issuesControl, h.issues, h.idInstr, hctrl]
      rw [adv.pc_kept (not_fetches_of_issuesControl hissues) (not_flushes (not_ctrlInMem_of_empty hmem)), h.pc] }

theorem LeadsInEx.exInstr (h : LeadsInEx s t) : t.exInstr = s.nextInstr := by
  rw [State.exInstr, h.latch.2]
  rfl

theorem LeadsInEx.step (h : LeadsInEx s t) (hstep : step t = .next u) : LeadsInMem s u := by
  have adv := advances_of_step h.inv hstep
  obtain ⟨hmem, hwb⟩ := h.first
  have hctrl : ¬ t.ctrlInMem := not_ctrlInMem_of_empty hmem
  obtain ⟨hocc, hmeml⟩ := step_meml h.inv.memWbNotStalled hstep hctrl h.latch.1
    (Bool.eq_false_iff.2 fun hst => hctrl (h.inv.exStalled.1 hst))
  have hres : result s.nextInstr t = result s.nextInstr s.aloneEx :=
    result_congr_of_control h.latch.2 h.cfg h.pc
  rw [h.exInstr, hres, h.latch.2] at hmeml
  exact {
    toLeads := h.toLeads.step hstep hwb
    latch := ⟨hocc, hmeml⟩
    first := adv.wb.1.trans hmem
    dmem := (step_dmem_of_memEmpty hstep hmem).trans h.dmem }

theorem LeadsInMem.memInstr (h : LeadsInMem s t) : t.memInstr = s.nextInstr := by
  rw [State.memInstr, h.latch.2]
  rfl

theorem LeadsInMem.step (h : LeadsInMem s t) (hstep : step t = .next u) : LeadsInWb s u := by
  have hleads := h.toLeads.step hstep h.first
  obtain ⟨hocc, hmeml⟩ := h.latch
  obtain ⟨hocc', hwbl⟩ := step_wbl h.inv.memWbNotStalled hstep hocc
  have hval : t.memVal s.nextInstr = s.aloneMem.memVal s.nextInstr := memVal_congr hmeml h.dmem _
  rw [h.memInstr, hval, hmeml] at hwbl
  refine { toLeads := hleads, latch := ⟨hocc', ?_⟩, dmem := ?_ }
  · rw [hwbl, State.aloneWb, accessed_frame]
  · rcases accessed_dmem s.aloneMem s.nextInstr with ⟨v, b, imm4, hi, hdmem⟩ | ⟨hno, hdmem⟩
    · have hx : u.x v = s.aloneMem.x v := x_congr hleads.regs v
      rw [step_dmem_of_store h.inv.memWbNotStalled hstep hocc (h.memInstr.trans hi), State.aloneWb, hdmem, hx, hmeml,
        memWrite_dmem, memWrite_dmem, h.dmem]
      rfl
    · rw [State.aloneWb, hdmem, step_dmem_of_no_store hstep fun _ => h.memInstr ▸ hno, h.dmem]
      rfl

theorem LeadsInWb.wbInstr (h : LeadsInWb s t) : t.wbInstr = s.nextInstr := by
  rw [State.wbInstr, h.latch.2, State.aloneWb, accessed_frame]
  rfl

/-- Its retirement leaves the registers, `halted` and the class counters as when it passes alone. -/
theorem LeadsInWb.step (h : LeadsInWb s t) (hrun : s.halted = false) (hstep : step t = .next u) :
    u.regs = s.alone.regs ∧ u.halted = s.alone.halted ∧ ∀ c, count u.stats c = count s.alone.stats c := by
  obtain ⟨hregs, hhalted, hcfg, hcounts⟩ := aloneWb_keeps (s := s)
  obtain ⟨hocc, hwbl⟩ := h.latch
  have hret : t.retires = true := (retires_iff t).2 ⟨hocc, h.inv.memWbNotStalled.2⟩
  refine ⟨regs_ext fun r => ?_, ?_, fun c => ?_⟩
  · have hx : t.x r = s.aloneWb.x r := x_congr (h.regs.trans hregs.symm) r
    rw [step_x hstep, State.alone, retired_x, h.wbInstr, hwbl, hx]
    simp [hret]
  · rw [(advances_of_step h.inv hstep).halted, State.alone, retired_frame]
    simp [hhalted, hrun, hocc, h.wbInstr]
  · rw [step_count hstep, if_pos hret, h.wbInstr, State.alone, retired_frame, hcfg, h.cfg]
    exact count_counted_congr s.cfg (fun c => (h.counts c).trans (hcounts c).symm) _ c

/-- The five cycles that take the instruction at `PC` through an empty pipeline. -/
theorem exists_leads (hinv : PipelineInv s) (hempty : s.drained) (hif : s.ifOccupied = true) (hrun : s.halted = false) :
    ∃ t₁ t₂ t₃ t₄ t₅, step s = .next t₁ ∧ step t₁ = .next t₂ ∧ step t₂ = .next t₃ ∧ step t₃ = .next t₄ ∧
      step t₄ = .next t₅ ∧ LeadsInId s t₁ ∧ LeadsInEx s t₂ ∧ LeadsInMem s t₃ ∧ LeadsInWb s t₄ := by
  obtain ⟨t₁, h₁⟩ := exists_step hrun
  have lead₁ := leadsInId_of_step hinv hempty hif h₁
  obtain ⟨t₂, h₂⟩ := exists_step (not_halted_of_idOccupied lead₁.inv lead₁.latch.1)
  have lead₂ := lead₁.step h₂
  obtain ⟨t₃, h₃⟩ := exists_step (not_halted_of_not_drained lead₂.inv fun ⟨_, hex, _⟩ => by simp [lead₂.latch.1] at hex)
  have lead₃ := lead₂.step h₃
  obtain ⟨t₄, h₄⟩ := exists_step (not_halted_of_not_drained lead₃.inv fun ⟨_, _, hmem, _⟩ => by simp [lead₃.latch.1] at hmem)
  have lead₄ := lead₃.step h₄
  obtain ⟨t₅, h₅⟩ := exists_step (not_halted_of_not_drained lead₄.inv fun ⟨_, _, _, hwb⟩ => by simp [lead₄.latch.1] at hwb)
  exact ⟨t₁, t₂, t₃, t₄, t₅, h₁, h₂, h₃, h₄, h₅, lead₁, lead₂, lead₃, lead₄⟩

/-! ## The next fetch, beside the `PC` that the instruction leaves alone -/

/-- Behind a plain instruction: in the cycle in which it issues. -/
theorem fetch_behind_plain (h : LeadsInId s t) (hu : step t = .next u) (hctrl : isControl s.nextInstr = false)
    (hhalt : s.nextInstr ≠ .halt) : u.idOccupied = true ∧ u.idl.pc = s.alone.pc := by
  obtain ⟨hocc, hidl, -⟩ := step_fetch h.inv hu (h.fetches hctrl hhalt)
  have hpc : t.pc = s.alone.pc := by simp [h.pc, alone_pc, hctrl]
  exact ⟨hocc, by rw [hidl, ← hpc]; rfl⟩

/-- Behind a control instruction: on a match, in the cycle that resolves it; on a difference nothing is fetched by then, and `PC` is
the target (R155). -/
theorem fetch_behind_control {v : State} (h : LeadsInEx s t) (hu : step t = .next u) (hv : step u = .next v)
    (hctrl : isControl s.nextInstr = true) :
    (s.alone.pc = s.pc + 2 → v.idOccupied = true ∧ v.idl.pc = s.alone.pc) ∧
    (s.alone.pc ≠ s.pc + 2 → v.idOccupied = false ∧ v.pc = s.alone.pc) := by
  obtain ⟨u', v', hu', hv', -, -, -, -, halu, -, -, -, -, -, -, hmatch, hdiffer⟩ :=
    Proofs.controlInstructionResolvesInTwoCycles t h.inv ⟨h.latch.1, by rw [h.exInstr, hctrl]⟩
  obtain rfl : u = u' := by simpa [hu] using hu'
  obtain rfl : v = v' := by simpa [hv] using hv'
  have htarget : s.alone.pc = aluN t := by rw [alone_pc, if_pos hctrl, ← (h.step hu).latch.2, halu]
  rw [htarget, ← h.pc hctrl]
  refine ⟨fun heq => ?_, hdiffer⟩
  obtain ⟨hocc, hidl, -⟩ := hmatch heq
  exact ⟨hocc, by rw [hidl, heq]⟩

/-- Behind a HALT: never, and `PC` stays two past it (R106). -/
theorem fetch_behind_halt (h : LeadsInWb s t) (hu : step t = .next u) (hhalt : s.nextInstr = .halt) :
    u.idOccupied = false ∧ u.pc = s.alone.pc := by
  have hwb : t.haltInWb := ⟨h.latch.1, h.wbInstr.trans hhalt⟩
  obtain ⟨⟨hid, -⟩, -, -, -, -, -, -, -, hpc⟩ :=
    Proofs.haltLeavesThePipelineEmpty t u h.inv hu ((advances_of_step h.inv hu).halted_iff.2 hwb)
  have hwbl : t.wbl.pc = s.pc := by
    rw [h.latch.2, State.aloneWb, accessed_frame]
    rfl
  exact ⟨hid, by rw [hpc, hwbl, alone_pc, hhalt]; rfl⟩

end

end Sys2Proof.Machine

/-! The statements on what an instruction reads and leaves. -/

namespace Sys2Proof.Proofs

open Sys2Proof Sys2Proof.Machine Sys2Proof.Claims

/-- Settles O32: a source is free when ID looks at it, because WB has cleared `r` and no other source is busy, so the instruction
issues, with its operands as they stand after the write of `r`. -/
theorem consumerIssuesInTheRetireCycle : Obligations.ConsumerIssuesInTheRetireCycle := by
  intro s r hinv hid hwb hdst hsrc
  have hfree : ∀ q ∈ srcs s.idInstr, ¬ s.busyAtId q = true := fun q hq => by
    rw [busyAtId_iff]
    rintro ⟨hbusy, hnot⟩
    rcases hsrc q hq with rfl | hq
    · exact hnot ⟨hwb, hdst⟩
    · simp [hq] at hbusy
  have hissues : s.issues = true := by simp [State.issues, hid, List.any_eq_false.2 hfree]
  obtain ⟨t, h⟩ := exists_step (not_halted_of_idOccupied hinv hid)
  obtain ⟨hocc, hexl⟩ := step_exl hinv h hissues
  have hret : s.retires = true := (retires_iff s).2 ⟨hwb, hinv.memWbNotStalled.2⟩
  have hops : operands s.idInstr t = (operandA s.idl.ir (s.writeReg r s.wbl.val), operandB s.idl.ir (s.writeReg r s.wbl.val)) :=
    (operands_congr fun q _ => step_x_writeReg h hret hdst q).trans (operands_decode _ _)
  rw [hops] at hexl
  exact ⟨t, h, hocc, by simp [hexl]⟩

/-- Settles O45: the instruction goes through the pipeline with what the latches hold when it passes alone (`exists_leads`), and
its retirement leaves the same state in the registers, `halted` and the class counters. What is fetched next follows from O35
behind a control instruction, and from O37 behind a HALT. -/
theorem fiveCyclesRunTheNextInstruction : Obligations.FiveCyclesRunTheNextInstruction := by
  intro s hinv hempty hif
  have hrun : s.halted = false := Bool.eq_false_iff.2 fun hh => by
    simp [hinv.haltStopsFetch.1 (hinv.haltSeen.2 (.inr (.inr (.inr hh))))] at hif
  obtain ⟨u, hu, hregs, hdmem, hpc, hhalted, hcounts⟩ := runAlone_nextInstr (not_busy_of_issuedDone hinv hempty.2)
  obtain ⟨t₁, t₂, t₃, t₄, t₅, h₁, h₂, h₃, h₄, h₅, lead₁, lead₂, lead₃, lead₄⟩ := exists_leads hinv hempty hif hrun
  obtain ⟨hregs', hhalted', hcounts'⟩ := lead₄.step hrun h₅
  have hrun₂ : Host.Core.run Sys2Proof.core 2 s = .next t₂ := by rw [run_of_step h₁, run_of_step h₂]; rfl
  have hrun₄ : Host.Core.run Sys2Proof.core 4 s = .next t₄ := by
    rw [run_of_step h₁, run_of_step h₂, run_of_step h₃, run_of_step h₄]; rfl
  have hrun₅ : Host.Core.run Sys2Proof.core 5 s = .next t₅ := by
    rw [run_of_step h₁, run_of_step h₂, run_of_step h₃, run_of_step h₄, run_of_step h₅]; rfl
  refine ⟨t₂, t₄, t₅, u, hu, hrun₂, hrun₄, lead₄.dmem.trans hdmem.symm, hrun₅, hregs'.trans hregs.symm,
    hhalted'.trans hhalted.symm, fun c => (hcounts' c).trans (hcounts c).symm, ?_⟩
  rw [hpc]
  exact ⟨fetch_behind_plain lead₁ h₂, fun hctrl => (fetch_behind_control lead₂ h₃ h₄ hctrl).1,
    fun hctrl => (fetch_behind_control lead₂ h₃ h₄ hctrl).2, fetch_behind_halt lead₄ h₅⟩

end Sys2Proof.Proofs
